-- ==== Sys2Proof/Word.lean ====
section
/-! DEFINITION. The word types of the block: the host bus moves 32-bit words (00_scope.md R8, 20_memory.md R61), a
command's operand field has 16 bits (30_encoding.md R80), and the raw frame has 40 (00_scope.md R8). -/

namespace Sys2Proof

/-- One word of the host bus. -/
abbrev Word := BitVec 32

/-- One 16-bit value: the ARG field of a command, and the registers HUM and TEMP. -/
abbrev Half := BitVec 16

/-- One byte of a frame. -/
abbrev Byte := BitVec 8

/-- The raw frame: five bytes, the first received in bits 39..32 (10_state.md R31). -/
abbrev Frame := BitVec 40

end Sys2Proof
end

