-- ==== Sys2Proof/Syntax.lean ====
section
/-! DEFINITION. The commands: one constructor per row of spec/opcode_table.json (30_encoding.md R81). -/

namespace Sys2Proof

/-- A command a host may write to CMD (30_encoding.md R81). NOP, BEGIN and READ have no operand: ARG is ignored there
(30_encoding.md R82). The operand of C2F and F2C is an integer in tenths of a degree. -/
inductive Instr
  /-- OP 0: does nothing (40_host_commands.md R104). -/
  | nop
  /-- OP 1: the one-time initialisation (40_host_commands.md R102). -/
  | begin
  /-- OP 2: starts the reading of a frame (40_host_commands.md R103). -/
  | read
  /-- OP 3: converts tenths of a degree Celsius (40_host_commands.md R105). -/
  | c2f (c : Int)
  /-- OP 4: converts tenths of a degree Fahrenheit (40_host_commands.md R106). -/
  | f2c (f : Int)
  deriving DecidableEq, Repr

end Sys2Proof
end

