-- ==== Sys2Proof/WellFormed.lean ====
section
/-! DEFINITION. Which terms of `Instr` stand for a command: the operand of C2F and F2C fits ARG (30_encoding.md R82, R87). -/

namespace Sys2Proof

/-- The operand is a 16-bit two's-complement integer, "in −32768..32767" (30_encoding.md R82, R87). -/
abbrev OperandFits (v : Int) : Prop := -32768 ≤ v ∧ v ≤ 32767

/-- A command whose operand, if it has one, fits ARG. -/
def Instr.wellFormed : Instr → Bool
  | .nop => true
  | .begin => true
  | .read => true
  | .c2f c => decide (OperandFits c)
  | .f2c f => decide (OperandFits f)

end Sys2Proof
end

