-- ==== Sys2Proof/Decode.lean ====
section
/-! DEFINITION. The decoder of 30_encoding.md R86, total on every 32-bit word and rejecting by name, and after it the encoder of
30_encoding.md R88. -/

namespace Sys2Proof

/-- Why a word is illegal (30_encoding.md R83, R84). -/
inductive IllegalWord
  /-- `w[15:3] ≠ 0` (30_encoding.md R83). -/
  | reservedField
  /-- `w[15:3] = 0` and `w[2:0]` is 5, 6 or 7 (30_encoding.md R84). -/
  | reservedOpcode
  deriving DecidableEq, Repr

/-- The decoder's verdict on a word: one of the five commands, or ILLEGAL (30_encoding.md R86). -/
inductive Verdict
  | command (i : Instr)
  | illegal (why : IllegalWord)
  deriving DecidableEq, Repr

/-- OP, bits 2:0 (30_encoding.md R80). -/
def opField (w : Word) : BitVec 3 := w.extractLsb' 0 3

/-- RSV, bits 15:3 (30_encoding.md R80). -/
def rsvField (w : Word) : BitVec 13 := w.extractLsb' 3 13

/-- ARG, bits 31:16 (30_encoding.md R80). -/
def argField (w : Word) : Half := w.extractLsb' 16 16

/-- `sext_32(w[31:16])`, read as an integer in tenths of a degree (30_encoding.md R82). -/
def argOperand (w : Word) : Int := ((argField w).signExtend 32).toInt

/-- The decoder (30_encoding.md R86). -/
def decode (w : Word) : Verdict :=
  if rsvField w ≠ 0 then .illegal .reservedField
  else match (opField w).toNat with
    | 0 => .command .nop
    | 1 => .command .begin
    | 2 => .command .read
    | 3 => .command (.c2f (argOperand w))
    | 4 => .command (.f2c (argOperand w))
    | _ => .illegal .reservedOpcode

/-- The word whose bits above `nbits` are 0 and whose other bits are those of `w`. A command is one 32-bit word
(30_encoding.md R80), so bits 32 and up are no part of it (log 13). -/
def tableWord (nbits w : Nat) : Word := BitVec.ofNat 32 (w % 2 ^ nbits)

/-- The command the decoder reads from a word numbered as the opcode table numbers it: bit i of the word is bit i of
`bus_wdata` (20_memory.md R62). -/
def decodeTableWord (nbits w : Nat) : Option Instr :=
  match decode (tableWord nbits w) with
  | .command i => some i
  | .illegal _ => none

/-- The encoder (30_encoding.md R88): ARG above, RSV 0 and OP below. -/
def encode : Instr → Word
  | .nop => 0x00000000#32
  | .begin => 0x00000001#32
  | .read => 0x00000002#32
  | .c2f c => BitVec.ofInt 16 c ++ 0x0003#16
  | .f2c f => BitVec.ofInt 16 f ++ 0x0004#16

end Sys2Proof
end

