-- ==== Sys2Proof/Config.lean ====
section
/-! DEFINITION. What an implementation fixes (the parameters of 00_scope.md R6), the input ports of 10_state.md R21, and
the free draw of those ports (10_state.md R20). -/

namespace Sys2Proof

/-- The sensor variant: the two values of the strap `variant` and of register VARIANT (00_scope.md R2, 10_state.md R33).
Model A is the value 0, Model B the value 1. -/
inductive Variant
  | modelA
  | modelB
  deriving DecidableEq, Repr, Inhabited

/-- The implementation parameters of 00_scope.md R6. CNT_W is computed from them (00_scope.md R7, `Params.cntW`). No logic
of the block uses the last two: they measure the host's duty of 70_reset_and_hazards.md R260 (log 11). -/
structure Params where
  /-- MAX_CYCLES: a measured pulse longer than this many samples is a Timeout. -/
  maxCycles         : Nat
  /-- BIT_THRESHOLD: a data high pulse strictly longer than this is a 1. -/
  bitThreshold      : Nat
  /-- BEGIN_WAIT_TICKS: the ticks BEGIN waits. -/
  beginWaitTicks    : Nat
  /-- START_HOLD_A_TICKS: the ticks READ holds the line low, Model A. -/
  startHoldATicks   : Nat
  /-- START_HOLD_B_TICKS: the ticks READ holds the line low, Model B. -/
  startHoldBTicks   : Nat
  /-- RELEASE_TICKS: the ticks READ waits with the line released before it samples. -/
  releaseTicks      : Nat
  /-- MIN_READ_INTERVAL_US: the host's duty between two READs, in microseconds. -/
  minReadIntervalUs : Nat
  /-- TICK_PERIOD, in nanoseconds. -/
  tickPeriodNs      : Nat
  deriving DecidableEq, Repr

/-- The values of the input ports in one cycle (10_state.md R21; `clk` is the step itself). -/
structure Inputs where
  /-- Synchronous reset, active high. -/
  rst      : Bool
  /-- The sensor-variant strap. -/
  variant  : Variant
  /-- The timebase strobe. -/
  tick     : Bool
  /-- The level of the line: true is high. -/
  dqIn     : Bool
  /-- The pad fault: true means that a pin operation in this cycle fails. -/
  ioErr    : Bool
  /-- The host's write strobe. -/
  busWr    : Bool
  /-- The host's word address, for both read and write. -/
  busAddr  : BitVec 3
  /-- The host's write data. -/
  busWdata : Word
  deriving DecidableEq, Repr, Inhabited

/-- The defaults of 00_scope.md R6. -/
def Config.defaults : Params where
  maxCycles := 1000000
  bitThreshold := 50
  beginWaitTicks := 20000
  startHoldATicks := 20000
  startHoldBTicks := 1100
  releaseTicks := 40
  minReadIntervalUs := 2000000
  tickPeriodNs := 1000

/-- The free draw of the input ports in cycle number n: nothing constrains it (10_state.md R20, log 1). -/
opaque Config.freeInputs : Nat → Inputs

end Sys2Proof
end

