-- ==== Sys2Proof/Machine/State.lean ====
section
/-! DEFINITION. The state of the machine as plain data: the block's registers (10_state.md R22, "the block's complete state"), the
parameters it is built with (00_scope.md R6), and the values of its input ports in the coming cycles (10_state.md R20, R21).
The block has no memory (20_memory.md R60). -/

namespace Sys2Proof.Machine

/-- PHASE, the sequencer's program counter (10_state.md R24): the nine phases, and the unused values 9 to 15
(10_state.md R28), `unused k` being the value 9 + k. -/
inductive Phase
  | idle
  | beginWait
  | startLow
  | startRel
  | ackLow
  | ackHigh
  | bitLow
  | bitHigh
  | validate
  | unused (k : Fin 7)
  deriving DecidableEq, Repr

/-- ERR, the outcome code of the most recent BEGIN or READ (10_state.md R37). `reserved k` is the code 5 + k. -/
inductive ErrCode
  | none
  | timeout
  | checksum
  | invalidSensorType
  | ioError
  | reserved (k : Fin 3)
  deriving DecidableEq, Repr

/-- The block's registers (10_state.md R22). CNT is a counter of CNT_W bits held as a natural number (log 8). -/
structure Regs where
  phase   : Phase
  cnt     : Nat
  bitIdx  : BitVec 6
  frame   : Frame
  dqLow   : Bool
  variant : Variant
  init    : Bool
  valid   : Bool
  tneg    : Bool
  err     : ErrCode
  ovr     : Bool
  ill     : Bool
  hum     : Half
  temp    : Half
  conv    : Word
  deriving DecidableEq, Repr

/-- The machine: the registers, the parameters (constant, log 2), the input ports of the coming cycles, the head being the
current one, and the number of the current cycle, which indexes the free draw where no input is given (log 1). -/
structure State where
  regs    : Regs
  params  : Params
  pending : List Inputs
  cycle   : Nat
  deriving DecidableEq, Repr

/-- Why the machine stops with a fault. -/
inductive Fault
  /-- Raised by the step, in a cycle without reset, in a state whose PHASE is 9 to 15, as 10_state.md R28 directs ("A model must
  treat a state holding such a value as a fault"). Safe: no run from reset reaches such a state (log 7). -/
  | unusedPhase
  deriving DecidableEq, Repr

/-- Why the model has no meaning for a step. -/
inductive Refusal
  /-- Raised by an arm of `exec` that has no meaning yet: by none in this model. Safe. -/
  | notModelled (mnemonic : String)
  /-- Raised by the step in a state whose parameters lie outside the ranges of 00_scope.md R6, as 93_implementation_defined.md
  I12 directs ("Values outside R6's ranges: refuse"). Safe (log 2). -/
  | parametersOutOfRange
  deriving DecidableEq, Repr

/-- The machine right after reset (70_reset_and_hazards.md R251), with the default parameters (log 2), the strap of Model A
(DESIGN CHOICE, log 3) and every input of the coming cycles a free draw (log 1). -/
def State.reset : State where
  regs :=
    { phase := .idle, cnt := 0, bitIdx := 0, frame := 0, dqLow := false, variant := .modelA,
      init := false, valid := false, tneg := false, err := .none, ovr := false, ill := false,
      hum := 0, temp := 0, conv := 0 }
  params := Config.defaults
  pending := []
  cycle := 0

end Sys2Proof.Machine
end

