-- ==== Sys2Proof/Machine/Ops.lean ====
section
/-! DEFINITION. The named operations over parameters and registers: CNT_W and the legal ranges (00_scope.md R6, R7), the two pin
drives (41_signalling.md R130), the counter and shift-register writes, the error entry Fail and its Cleanup
(60_exceptions.md R225), and the reset step (70_reset_and_hazards.md R251). -/

namespace Sys2Proof

/-- The number CNT_W must be able to count to, plus one: the argument of the logarithm in 00_scope.md R7. -/
def Params.cntSpan (p : Params) : Nat :=
  max (p.maxCycles + 2)
    (max (p.beginWaitTicks + 1) (max (p.startHoldATicks + 1) (max (p.startHoldBTicks + 1) (p.releaseTicks + 1))))

/-- CNT_W, "the least width w that meets two conditions": the ceiling of the binary logarithm of `cntSpan`, which is at least 2
(00_scope.md R7). -/
def Params.cntW (p : Params) : Nat := Nat.log2 (p.cntSpan - 1) + 1

/-- Every parameter lies in its legal range (the table of 00_scope.md R6). -/
abbrev Params.Legal (p : Params) : Prop :=
  (1 ≤ p.maxCycles ∧ p.maxCycles ≤ 2 ^ p.cntW - 2) ∧
  p.bitThreshold ≤ p.maxCycles ∧
  (1 ≤ p.beginWaitTicks ∧ p.beginWaitTicks ≤ 2 ^ p.cntW - 1) ∧
  (1 ≤ p.startHoldATicks ∧ p.startHoldATicks ≤ 2 ^ p.cntW - 1) ∧
  (1 ≤ p.startHoldBTicks ∧ p.startHoldBTicks ≤ 2 ^ p.cntW - 1) ∧
  (1 ≤ p.releaseTicks ∧ p.releaseTicks ≤ 2 ^ p.cntW - 1)

/-- HOLD, the length of the start pulse of a variant (41_signalling.md R134). -/
def Params.hold (p : Params) : Variant → Nat
  | .modelA => p.startHoldATicks
  | .modelB => p.startHoldBTicks

end Sys2Proof

namespace Sys2Proof.Machine

/-- PHASE holds one of the nine values a rule names (10_state.md R24, R28). -/
def Phase.used : Phase → Bool
  | .unused _ => false
  | _ => true

/-- `CNT <- n`: CNT holds CNT_W bits (00_scope.md R7, log 8). -/
def Regs.setCnt (p : Params) (n : Nat) (r : Regs) : Regs := { r with cnt := n % 2 ^ p.cntW }

/-- PinDrive(low): pull the line low (41_signalling.md R130). -/
def Regs.pinLow (r : Regs) : Regs := { r with dqLow := true }

/-- PinDrive(high): release the line (41_signalling.md R130). -/
def Regs.pinHigh (r : Regs) : Regs := { r with dqLow := false }

/-- The results are cleared: `VALID <- 0; HUM <- 0; TEMP <- 0; TNEG <- 0` (40_host_commands.md R102, R103; 60_exceptions.md R225). -/
def Regs.clearResults (r : Regs) : Regs := { r with valid := false, hum := 0, temp := 0, tneg := false }

/-- `Cleanup()` (60_exceptions.md R225). -/
def Regs.cleanup (r : Regs) : Regs :=
  { r with
    phase := .idle, dqLow := false, cnt := 0, bitIdx := 0, frame := 0,
    valid := false, hum := 0, temp := 0, tneg := false }

/-- `raise Fail(code)`: the one way an error ends a running command (60_exceptions.md R225). -/
def Regs.fail (code : ErrCode) (r : Regs) : Regs := { r.cleanup with err := code }

/-- The wait or measurement phase `ph` is entered with CNT at n. -/
def Regs.enter (ph : Phase) (n : Nat) (r : Regs) : Regs := { r with phase := ph, cnt := n }

/-- `FRAME <- {FRAME[38:0], b}; BITIDX <- BITIDX + 1` (42_capture.md R154). -/
def Regs.shiftIn (b : Bool) (r : Regs) : Regs :=
  { r with
    frame := (r.frame.extractLsb' 0 39 ++ BitVec.ofBool b : BitVec 40),
    bitIdx := r.bitIdx + 1 }

/-- `OVR <- 1`, and nothing else: a BEGIN or READ written while busy (40_host_commands.md R107). -/
def Regs.flagOverrun (r : Regs) : Regs := { r with ovr := true }

/-- `ILL <- 1`, and nothing else: an illegal word written to CMD (40_host_commands.md R108). -/
def Regs.flagIllegal (r : Regs) : Regs := { r with ill := true }

/-- The registers after a reset cycle with the strap at `strap` (70_reset_and_hazards.md R251). -/
def resetRegs (strap : Variant) : Regs where
  phase := .idle
  cnt := 0
  bitIdx := 0
  frame := 0
  dqLow := false
  variant := strap
  init := false
  valid := false
  tneg := false
  err := .none
  ovr := false
  ill := false
  hum := 0
  temp := 0
  conv := 0

/-- The state with its registers replaced. -/
def State.withRegs (s : State) (r : Regs) : State := { s with regs := r }

end Sys2Proof.Machine
end

