-- ==== Sys2Proof/Machine/Operands.lean ====
section
/-! DEFINITION. What a cycle reads from outside the registers: the input ports of the current cycle (00_scope.md R11, 10_state.md
R20, R21), the word the host writes to CMD (40_host_commands.md R101), the sample of the line (42_capture.md R150), and the
bytes of the frame (43_validate_decode.md R180). -/

namespace Sys2Proof.Machine

/-- The input ports in the current cycle: the given ones, or else a free draw (10_state.md R20, log 1). -/
def State.inputs (s : State) : Inputs :=
  match s.pending with
  | [] => Config.freeInputs s.cycle
  | i :: _ => i

/-- The state whose current cycle has the input ports `i`; later cycles keep theirs. -/
def State.withInputs (s : State) (i : Inputs) : State := { s with pending := i :: s.pending.tail }

/-- The edge that ends the cycle: the next cycle's input ports become the current ones. -/
def State.nextCycle (s : State) : State := { s with pending := s.pending.tail, cycle := s.cycle + 1 }

/-- The word the host writes to CMD in a cycle with these ports, if it writes one: `bus_wr = 1` and `bus_addr = 0`
(40_host_commands.md R101; a write to any other address has no effect). -/
def commandWord (i : Inputs) : Option Word :=
  if i.busWr && i.busAddr == 0 then some i.busWdata else none

/-- The ports `i` with a write of `w` to CMD, no reset and a working pad (log 4). -/
def writingCommand (w : Word) (i : Inputs) : Inputs :=
  { i with rst := false, ioErr := false, busWr := true, busAddr := 0, busWdata := w }

/-- `PinSample()`: the level of the line in this cycle (42_capture.md R150). -/
def pinSample (i : Inputs) : Bool := i.dqIn

/-- Byte k of the frame, `FRAME[39−8k : 32−8k]` (10_state.md R31, 43_validate_decode.md R180). -/
def frameByte (f : Frame) (k : Nat) : Byte := f.extractLsb' (32 - 8 * k) 8

end Sys2Proof.Machine
end

