-- ==== Sys2Proof/Machine/Control.lean ====
section
/-! DEFINITION. The commands NOP, BEGIN and READ: what the write does at the end of its cycle (40_host_commands.md R102, R103, R104,
R107). The sequences that BEGIN and READ start are the sequencer's (log 5). -/

namespace Sys2Proof.Machine

/-- NOP: no register is written, in any phase (40_host_commands.md R104). -/
def execNop (s : State) : Host.Outcome State Fault Refusal := .next s

/-- The acceptance of BEGIN; `ioErr` is the pad's answer to the pin drive (40_host_commands.md R102). -/
def acceptBegin (ioErr : Bool) (r : Regs) : Regs :=
  let r := r.clearResults.pinHigh
  if ioErr then { r with err := .ioError, init := false }
  else { r.enter .beginWait 0 with err := .none }

/-- The acceptance of READ; `ioErr` is the pad's answer to the pin drive (40_host_commands.md R103). -/
def acceptRead (ioErr : Bool) (r : Regs) : Regs :=
  let r := r.clearResults
  if ioErr then { r.pinHigh with err := .ioError }
  else { r.pinLow.enter .startLow 0 with err := .none }

/-- BEGIN: accepted in IDLE (40_host_commands.md R102), refused with OVR otherwise (40_host_commands.md R107). -/
def execBegin (s : State) : Host.Outcome State Fault Refusal :=
  .next (s.withRegs (if s.regs.phase = .idle then acceptBegin s.inputs.ioErr s.regs else s.regs.flagOverrun))

/-- READ: accepted in IDLE whatever INIT is (40_host_commands.md R103), refused with OVR otherwise (40_host_commands.md R107). -/
def execRead (s : State) : Host.Outcome State Fault Refusal :=
  .next (s.withRegs (if s.regs.phase = .idle then acceptRead s.inputs.ioErr s.regs else s.regs.flagOverrun))

end Sys2Proof.Machine
end

