-- ==== Sys2Proof/Machine/Convert.lean ====
section
/-! DEFINITION. The commands C2F and F2C and their arithmetic (40_host_commands.md R105, R106; 44_temperature_scale.md). -/

namespace Sys2Proof.Machine

/-- `rdiv(n, d) = floor((2n + d) / (2d))`: the integer nearest to n / d, for odd d > 0 (44_temperature_scale.md R200). `Int`'s
division rounds toward minus infinity where the divisor is positive. -/
def rdiv (n d : Int) : Int := (2 * n + d) / (2 * d)

/-- `c2f(c) = rdiv(9 × c, 5) + 320`, in tenths of a degree (44_temperature_scale.md R201). -/
def celsiusToFahrenheit (c : Int) : Int := rdiv (9 * c) 5 + 320

/-- `f2c(f) = rdiv(5 × (f − 320), 9)`, in tenths of a degree (44_temperature_scale.md R202). -/
def fahrenheitToCelsius (f : Int) : Int := rdiv (5 * (f - 320)) 9

/-- `CONV <- sext_32(result)` (44_temperature_scale.md R205; log 14 for an operand that no word encodes). -/
def Regs.setConv (result : Int) (r : Regs) : Regs := { r with conv := BitVec.ofInt 32 result }

/-- C2F, in any phase (40_host_commands.md R105). -/
def execC2f (c : Int) (s : State) : Host.Outcome State Fault Refusal :=
  .next (s.withRegs (s.regs.setConv (celsiusToFahrenheit c)))

/-- F2C, in any phase (40_host_commands.md R106). -/
def execF2c (f : Int) (s : State) : Host.Outcome State Fault Refusal :=
  .next (s.withRegs (s.regs.setConv (fahrenheitToCelsius f)))

end Sys2Proof.Machine
end

