-- ==== Sys2Proof/Machine/Dispatch.lean ====
section
/-! DEFINITION. The dispatch: one arm per command, each a direct call of its meaning. -/

namespace Sys2Proof.Machine

def exec (i : Instr) (s : State) : Host.Outcome State Fault Refusal :=
  match i with
  | .nop => Sys2Proof.Machine.execNop s
  | .begin => Sys2Proof.Machine.execBegin s
  | .read => Sys2Proof.Machine.execRead s
  | .c2f c => Sys2Proof.Machine.execC2f c s
  | .f2c f => Sys2Proof.Machine.execF2c f s

end Sys2Proof.Machine
end

