-- ==== Sys2Proof/Machine/Flags.lean ====
section
/-! DEFINITION. The flag and status computations: BUSY (10_state.md R26), the codes of PHASE, ERR and VARIANT (R24, R37, R33), the
STATUS word (R45), the host's reads (40_host_commands.md R100), the outputs (R21), the value of a data bit (42_capture.md
R156), and the checksum (43_validate_decode.md R182). -/

namespace Sys2Proof.Machine

/-- The 4-bit value of PHASE (10_state.md R24). -/
def Phase.code : Phase → BitVec 4
  | .idle => 0
  | .beginWait => 1
  | .startLow => 2
  | .startRel => 3
  | .ackLow => 4
  | .ackHigh => 5
  | .bitLow => 6
  | .bitHigh => 7
  | .validate => 8
  | .unused k => BitVec.ofNat 4 (9 + k.val)

/-- The 3-bit value of ERR (10_state.md R37). -/
def ErrCode.code : ErrCode → BitVec 3
  | .none => 0
  | .timeout => 1
  | .checksum => 2
  | .invalidSensorType => 3
  | .ioError => 4
  | .reserved k => BitVec.ofNat 3 (5 + k.val)

/-- The value of VARIANT: 0 is Model A, 1 is Model B (10_state.md R33). -/
def variantBit : Variant → BitVec 1
  | .modelA => 0
  | .modelB => 1

/-- BUSY, `PHASE ≠ IDLE` (10_state.md R26). -/
def Regs.busy (r : Regs) : Bool := decide (r.phase ≠ .idle)

/-- The word a read of STATUS returns (10_state.md R45, 40_host_commands.md R100). -/
def Regs.status (r : Regs) : Word :=
  (0#10 ++ r.bitIdx ++ r.phase.code ++ 0#2 ++ BitVec.ofBool r.ill ++ BitVec.ofBool r.ovr ++ variantBit r.variant ++
    r.err.code ++ BitVec.ofBool r.tneg ++ BitVec.ofBool r.valid ++ BitVec.ofBool r.init ++ BitVec.ofBool r.busy).cast
    (show 10 + 6 + 4 + 2 + 1 + 1 + 1 + 3 + 1 + 1 + 1 + 1 = 32 from rfl)

/-- `BusRead(a)`: no side effect, and a function of the state before the cycle's edge (40_host_commands.md R100, 20_memory.md
R65, R69; log 12). -/
def busRead (a : BitVec 3) (s : State) : Word :=
  match a.toNat with
  | 1 => s.regs.status
  | 2 => s.regs.hum.zeroExtend 32
  | 3 => s.regs.temp.signExtend 32
  | 4 => s.regs.conv
  | _ => 0

/-- The output `dq_pull_low` (10_state.md R21). -/
def dqPullLow (s : State) : Bool := s.regs.dqLow

/-- The output `busy` (10_state.md R21, R26). -/
def busyOut (s : State) : Bool := s.regs.busy

/-- The output `bus_rdata` in the current cycle (10_state.md R21). -/
def busRdata (s : State) : Word := busRead s.inputs.busAddr s

/-- The value of the data bit whose high pulse had this width (42_capture.md R156). -/
def dataBit (p : Params) (width : Nat) : Bool := decide (width > p.bitThreshold)

/-- `checksum_ok(b0, b1, b2, b3, b4)` (43_validate_decode.md R182). -/
def checksumOk (f : Frame) : Bool :=
  ((frameByte f 0).toNat + (frameByte f 1).toNat + (frameByte f 2).toNat + (frameByte f 3).toNat) % 256 ==
    (frameByte f 4).toNat

end Sys2Proof.Machine
end

