-- ==== Sys2Proof/Machine/Sequencer.lean ====
section
/-! DEFINITION. The sequencer: what each phase does to the registers in one cycle (41_signalling.md, 42_capture.md,
43_validate_decode.md). `r` is the registers before the edge and `i` the input ports of the cycle. -/

namespace Sys2Proof.Machine

/-- BEGIN_WAIT (41_signalling.md R131). -/
def beginWaitCycle (p : Params) (i : Inputs) (r : Regs) : Regs :=
  if i.tick then
    if r.cnt + 1 = p.beginWaitTicks then { r.enter .idle 0 with init := true }
    else r.setCnt p (r.cnt + 1)
  else r

/-- START_LOW: the counting cycles (41_signalling.md R132) and the end of the hold (41_signalling.md R133). A tick with CNT + 1
above HOLD is under neither rule and writes nothing (log 9). -/
def startLowCycle (p : Params) (i : Inputs) (r : Regs) : Regs :=
  if i.tick then
    if r.cnt + 1 < p.hold r.variant then r.setCnt p (r.cnt + 1)
    else if r.cnt + 1 = p.hold r.variant then
      if i.ioErr then r.pinHigh.fail .ioError else r.pinHigh.enter .startRel 0
    else r
  else r

/-- START_REL (41_signalling.md R135). -/
def startRelCycle (p : Params) (i : Inputs) (r : Regs) : Regs :=
  if i.tick then
    if r.cnt + 1 = p.releaseTicks then r.enter .ackLow 0
    else r.setCnt p (r.cnt + 1)
  else r

/-- A measurement phase with the expected level `level`: the pad's error first (42_capture.md R151), then the level, then the
Timeout (42_capture.md R152, 60_exceptions.md R223). `ended` are the registers where the sample ends the pulse. -/
def measureCycle (p : Params) (i : Inputs) (level : Bool) (ended : Regs) (r : Regs) : Regs :=
  if i.tick then
    if i.ioErr then r.fail .ioError
    else if pinSample i = level then
      if r.cnt + 1 > p.maxCycles then r.fail .timeout else r.setCnt p (r.cnt + 1)
    else ended
  else r

/-- The end of a data high pulse of width CNT: its bit enters FRAME, and the capture goes on or ends (42_capture.md R154). -/
def dataPulseEnd (p : Params) (r : Regs) : Regs :=
  let shifted := r.shiftIn (dataBit p r.cnt)
  if r.bitIdx + 1 = 40 then shifted.enter .validate 0 else shifted.enter .bitLow 1

/-- HUM, TEMP and TNEG of a frame (43_validate_decode.md R183). -/
structure Reading where
  hum  : Half
  temp : Half
  tneg : Bool
  deriving DecidableEq, Repr

/-- The unit decode of Model A (43_validate_decode.md R184). -/
def decodeModelA (f : Frame) : Reading where
  hum := BitVec.ofNat 16 ((frameByte f 0).toNat * 10 + (frameByte f 1).toNat)
  temp := BitVec.ofNat 16 ((frameByte f 2).toNat * 10 + (frameByte f 3).toNat)
  tneg := false

/-- The magnitude of a Model B temperature, `(b2 & 0x7F) × 256 + b3` (43_validate_decode.md R185). -/
def magnitude (f : Frame) : Nat := (frameByte f 2 &&& 0x7F#8).toNat * 256 + (frameByte f 3).toNat

/-- The unit decode of Model B: sign and magnitude, not two's complement (43_validate_decode.md R185). -/
def decodeModelB (f : Frame) : Reading where
  hum := BitVec.ofNat 16 ((frameByte f 0).toNat * 256 + (frameByte f 1).toNat)
  temp := BitVec.ofInt 16 (if (frameByte f 2).getLsbD 7 then -(magnitude f : Int) else magnitude f)
  tneg := (frameByte f 2).getLsbD 7

/-- `decode(VARIANT, b0, b1, b2, b3)` (43_validate_decode.md R183). -/
def decodeReading (v : Variant) (f : Frame) : Reading :=
  match v with
  | .modelA => decodeModelA f
  | .modelB => decodeModelB f

/-- VALIDATE: one cycle, whatever the inputs are (43_validate_decode.md R181). -/
def validateCycle (r : Regs) : Regs :=
  if checksumOk r.frame then
    let reading := decodeReading r.variant r.frame
    { r with
      hum := reading.hum, temp := reading.temp, tneg := reading.tneg,
      valid := true, frame := 0, bitIdx := 0, cnt := 0, phase := .idle }
  else r.fail .checksum

/-- The sequencer's step: the phase decides which rule acts in the cycle (10_state.md R24). IDLE acts on host writes only. An unused
phase performs the cleanup with ERR unchanged (10_state.md R28); the cycle itself stops there first (log 7). -/
def sequencerCycle (p : Params) (i : Inputs) (ph : Phase) (r : Regs) : Regs :=
  match ph with
  | .idle => r
  | .beginWait => beginWaitCycle p i r
  | .startLow => startLowCycle p i r
  | .startRel => startRelCycle p i r
  | .ackLow => measureCycle p i false (r.enter .ackHigh 1) r
  | .ackHigh => measureCycle p i true (r.enter .bitLow 1) r
  | .bitLow => measureCycle p i false (r.enter .bitHigh 1) r
  | .bitHigh => measureCycle p i true (dataPulseEnd p r) r
  | .validate => validateCycle r
  | .unused _ => r.cleanup

end Sys2Proof.Machine
end

