-- ==== Sys2Proof/Machine/Cycle.lean ====
section
/-! DEFINITION. One clock cycle: reset, then the host's write and the sequencer (00_scope.md R11, 60_exceptions.md R223), and where a
command is placed so that the next step runs it. -/

namespace Sys2Proof.Machine

/-- The host's bus write of the cycle (40_host_commands.md R101): a command runs, an illegal word sets ILL (40_host_commands.md
R108), and no write, or a write to another address than CMD, does nothing. -/
def hostCycle (s : State) : Host.Outcome State Fault Refusal :=
  match commandWord s.inputs with
  | none => .next s
  | some w =>
    match decode w with
    | .command i => exec i s
    | .illegal _ => .next (s.withRegs s.regs.flagIllegal)

/-- The sequencer's part of the cycle, for the phase `ph` of before the edge. The host's write has been applied to `s`: the two
write disjoint registers, and in a busy phase no command writes a register the sequencer reads (20_memory.md R74, log 6). -/
def runSequencer (ph : Phase) (s : State) : State :=
  s.withRegs (sequencerCycle s.params s.inputs ph s.regs)

/-- One clock cycle. Parameters outside their ranges are refused (93_implementation_defined.md I12). `rst = 1` overrides everything
(70_reset_and_hazards.md R250). An unused PHASE is a fault (10_state.md R28). -/
def cycle (s : State) : Host.Outcome State Fault Refusal :=
  if s.params.Legal then
    if s.inputs.rst then .next (s.withRegs (resetRegs s.inputs.variant)).nextCycle
    else if s.regs.phase.used then
      match hostCycle s with
      | .next t => .next (runSequencer s.regs.phase t).nextCycle
      | .fault f => .fault f
      | .refused r => .refused r
    else .fault .unusedPhase
  else .refused .parametersOutOfRange

/-- The state in whose current cycle the host writes the word `w` to CMD (20_memory.md R72, log 4). -/
def placeCommand (w : Word) (s : State) : State := s.withInputs (writingCommand w s.inputs)

end Sys2Proof.Machine
end

