-- ==== Sys2Proof/Machine/Step.lean ====
section
/-! DEFINITION. The step of the machine is one clock cycle (00_scope.md R11), and a command is fetched from the host's write of the
current cycle (20_memory.md R72). -/

namespace Sys2Proof.Machine

/-- One step: one rising edge of `clk` (00_scope.md R11). -/
def step (s : State) : Host.Outcome State Fault Refusal := cycle s

/-- The state whose next step runs the command word `w` (its `nbits` low bits, the bits above 0). The block has no stored program and
fetches nothing (20_memory.md R72): the word is what the host writes to CMD in the current cycle (log 4). -/
def State.withFetchWord (s : State) (nbits w : Nat) : State := placeCommand (tableWord nbits w) s

end Sys2Proof.Machine
end

