-- ==== Sys2Proof/Safety.lean ====
section
/-! DEFINITION. The terms claims are stated in: the invariant of a run, reachable states, schedules of input ports, the sensor's
waveform, and the premises a claim may need. Nothing of the machine depends on this file. -/

namespace Sys2Proof.Machine

/-! ### The host's write of a cycle -/

/-- In a cycle with these ports, without reset, the host writes a word with this verdict to CMD (40_host_commands.md R101). -/
abbrev CommandWrite (i : Inputs) (v : Verdict) : Prop :=
  i.rst = false ∧ i.busWr = true ∧ i.busAddr = 0 ∧ decode i.busWdata = v

/-- In a cycle with these ports there is neither a reset nor a bus write. -/
abbrev QuietBus (i : Inputs) : Prop := i.rst = false ∧ i.busWr = false

/-- The same ports without the bus write. -/
def withoutWrite (i : Inputs) : Inputs := { i with busWr := false }

/-- The state of the next cycle: the registers are `r`, one cycle of input ports is used up, and nothing else changes. -/
def afterCycle (s : State) (r : Regs) : State :=
  { regs := r, params := s.params, pending := s.pending.tail, cycle := s.cycle + 1 }

/-! ### Schedules: the ports of several cycles -/

/-- How many cycles of the schedule are tick cycles (70_reset_and_hazards.md R265). -/
def tickCount (ins : List Inputs) : Nat := ins.countP (fun i => i.tick)

/-- The samples of the line in the tick cycles of the schedule, oldest first (42_capture.md R157). -/
def lineSamples (ins : List Inputs) : List Bool := (ins.filter (fun i => i.tick)).map (fun i => i.dqIn)

/-- No cycle of the schedule resets the block. -/
abbrev NoReset (ins : List Inputs) : Prop := ∀ i ∈ ins, i.rst = false

/-- In every tick cycle of the schedule the pad works. -/
abbrev PadWorks (ins : List Inputs) : Prop := ∀ i ∈ ins, i.tick = true → i.ioErr = false

/-- The last cycle of the schedule is a tick cycle. -/
def endsOnTick (ins : List Inputs) : Bool :=
  match ins.getLast? with
  | some i => i.tick
  | none => false

/-! ### The sensor's waveform -/

/-- One level held for n samples. -/
def pulse (level : Bool) (n : Nat) : List Bool := List.replicate n level

/-- The samples of a capture of 40 bits: the acknowledgment pulses of widths `ackLow` and `ackHigh`, for bit k a separator of width
`low k` and a data pulse of width `high k`, and the one sample that ends the capture (42_capture.md R157). With `ackLow = 0` the
first sample is high, the second case of that rule. -/
def captureSamples (ackLow ackHigh : Nat) (low high : Nat → Nat) : List Bool :=
  pulse false ackLow ++ pulse true ackHigh ++
    (List.range 40).flatMap (fun k => pulse false (low k) ++ pulse true (high k)) ++ [false]

/-- Byte k of a frame as a number (43_validate_decode.md R180). -/
def byteValue (f : Frame) (k : Nat) : Nat := f.toNat / 2 ^ (32 - 8 * k) % 256

/-- The frame's checksum byte equals the sum of its first four bytes modulo 256 (43_validate_decode.md R182). -/
abbrev ChecksumHolds (f : Frame) : Prop :=
  (byteValue f 0 + byteValue f 1 + byteValue f 2 + byteValue f 3) % 256 = byteValue f 4

/-! ### Phases -/

/-- The expected level of a measurement phase (42_capture.md R155). -/
def expectedLevel : Phase → Option Bool
  | .ackLow => some false
  | .ackHigh => some true
  | .bitLow => some false
  | .bitHigh => some true
  | _ => none

/-- The length of a wait phase in ticks (41_signalling.md R136). -/
def waitLength (p : Params) (v : Variant) : Phase → Option Nat
  | .beginWait => some p.beginWaitTicks
  | .startLow => some (if v = .modelA then p.startHoldATicks else p.startHoldBTicks)
  | .startRel => some p.releaseTicks
  | _ => none

/-- The cycle performs a pin operation: one of the four kinds of 60_exceptions.md R222. -/
def PinOperation (p : Params) (r : Regs) (i : Inputs) : Prop :=
  (r.phase = .idle ∧ (CommandWrite i (.command .begin) ∨ CommandWrite i (.command .read))) ∨
  (r.phase = .startLow ∧ i.tick = true ∧ some (r.cnt + 1) = waitLength p r.variant .startLow) ∨
  ((expectedLevel r.phase).isSome = true ∧ i.tick = true)

/-- The rows of the transition table of 10_state.md R27, but for the row of the unused values: in a cycle from `r` with the ports `i`
the table gives the phase. -/
inductive TransitionRow (p : Params) (r : Regs) (i : Inputs) : Phase → Prop
  | reset : i.rst = true → TransitionRow p r i .idle
  | beginAccepted : r.phase = .idle → CommandWrite i (.command .begin) → i.ioErr = false → TransitionRow p r i .beginWait
  | beginFailed : r.phase = .idle → CommandWrite i (.command .begin) → i.ioErr = true → TransitionRow p r i .idle
  | readAccepted : r.phase = .idle → CommandWrite i (.command .read) → i.ioErr = false → TransitionRow p r i .startLow
  | readFailed : r.phase = .idle → CommandWrite i (.command .read) → i.ioErr = true → TransitionRow p r i .idle
  | beginDone : i.rst = false → r.phase = .beginWait → i.tick = true → r.cnt + 1 = p.beginWaitTicks → TransitionRow p r i .idle
  | holdDone : i.rst = false → r.phase = .startLow → i.tick = true →
      some (r.cnt + 1) = waitLength p r.variant .startLow → i.ioErr = false → TransitionRow p r i .startRel
  | holdFailed : i.rst = false → r.phase = .startLow → i.tick = true →
      some (r.cnt + 1) = waitLength p r.variant .startLow → i.ioErr = true → TransitionRow p r i .idle
  | releaseDone : i.rst = false → r.phase = .startRel → i.tick = true → r.cnt + 1 = p.releaseTicks → TransitionRow p r i .ackLow
  | sampleFailed : i.rst = false → (expectedLevel r.phase).isSome = true → i.tick = true → i.ioErr = true →
      TransitionRow p r i .idle
  | timedOut : i.rst = false → expectedLevel r.phase = some i.dqIn → i.tick = true → i.ioErr = false →
      r.cnt + 1 > p.maxCycles → TransitionRow p r i .idle
  | ackLowEnds : i.rst = false → r.phase = .ackLow → i.tick = true → i.ioErr = false → i.dqIn = true →
      TransitionRow p r i .ackHigh
  | ackHighEnds : i.rst = false → r.phase = .ackHigh → i.tick = true → i.ioErr = false → i.dqIn = false →
      TransitionRow p r i .bitLow
  | bitLowEnds : i.rst = false → r.phase = .bitLow → i.tick = true → i.ioErr = false → i.dqIn = true →
      TransitionRow p r i .bitHigh
  | bitEnds : i.rst = false → r.phase = .bitHigh → i.tick = true → i.ioErr = false → i.dqIn = false →
      r.bitIdx.toNat + 1 < 40 → TransitionRow p r i .bitLow
  | frameEnds : i.rst = false → r.phase = .bitHigh → i.tick = true → i.ioErr = false → i.dqIn = false →
      r.bitIdx.toNat + 1 = 40 → TransitionRow p r i .validate
  | checksumFails : i.rst = false → r.phase = .validate → ¬ChecksumHolds r.frame → TransitionRow p r i .idle
  | checksumPasses : i.rst = false → r.phase = .validate → ChecksumHolds r.frame → TransitionRow p r i .idle

/-! ### The invariant -/

/-- CNT in each phase: 0 in IDLE and VALIDATE, the ticks counted so far in a wait, the width so far in a measurement (10_state.md R29,
42_capture.md R152, R158). -/
def cntInPhase (p : Params) (r : Regs) : Bool :=
  match r.phase with
  | .idle => decide (r.cnt = 0)
  | .beginWait => decide (r.cnt < p.beginWaitTicks)
  | .startLow => decide (r.cnt < p.hold r.variant)
  | .startRel => decide (r.cnt < p.releaseTicks)
  | .ackLow => decide (r.cnt ≤ p.maxCycles)
  | .ackHigh => decide (1 ≤ r.cnt ∧ r.cnt ≤ p.maxCycles)
  | .bitLow => decide (1 ≤ r.cnt ∧ r.cnt ≤ p.maxCycles)
  | .bitHigh => decide (1 ≤ r.cnt ∧ r.cnt ≤ p.maxCycles)
  | .validate => decide (r.cnt = 0)
  | .unused _ => false

/-- BITIDX in each phase: below 40 while bits are measured, 40 in VALIDATE, 0 elsewhere (10_state.md R30, 42_capture.md R154). -/
def bitsInPhase (r : Regs) : Bool :=
  match r.phase with
  | .bitLow => decide (r.bitIdx.toNat < 40)
  | .bitHigh => decide (r.bitIdx.toNat < 40)
  | .validate => decide (r.bitIdx.toNat = 40)
  | _ => decide (r.bitIdx.toNat = 0)

/-- What holds of the registers in every state a run from reset reaches. -/
structure Regs.Inv (p : Params) (r : Regs) : Prop where
  /-- No rule reaches an unused PHASE (10_state.md R28). -/
  phaseUsed : r.phase.used = true
  /-- CNT fits its register (00_scope.md R7). -/
  cntFits : r.cnt < 2 ^ p.cntW
  /-- CNT means what its phase says (10_state.md R29). -/
  cntInPhase : cntInPhase p r = true
  /-- BITIDX lies in 0..40 and is cleared outside the bits (10_state.md R30). -/
  bitsInPhase : bitsInPhase r = true
  /-- FRAME holds only the bits received so far (10_state.md R31, R43). -/
  frameHoldsBits : r.frame.toNat < 2 ^ r.bitIdx.toNat
  /-- DQ_LOW "is 1 only while PHASE = START_LOW", and there it is 1 (10_state.md R24, R32). -/
  lineLowInHold : r.dqLow = decide (r.phase = .startLow)
  /-- ERR holds a code that some rule writes (10_state.md R37, 60_exceptions.md R235). -/
  errWritten : r.err = .none ∨ r.err = .timeout ∨ r.err = .checksum ∨ r.err = .ioError
  /-- While a command runs there is no result and no error (10_state.md R37, 70_reset_and_hazards.md R263). -/
  busyShowsNothing : r.phase ≠ .idle → r.valid = false ∧ r.err = .none
  /-- A valid reading has no error (10_state.md R35). -/
  validHasNoError : r.valid = true → r.err = .none
  /-- HUM, TEMP and TNEG are 0 whenever VALID = 0 (10_state.md R40, R41, 70_reset_and_hazards.md R263). -/
  invalidReadsZero : r.valid = false → r.hum = 0 ∧ r.temp = 0 ∧ r.tneg = false
  /-- The ranges of a Model A reading (10_state.md R36, R40, R41). -/
  modelARange : r.variant = .modelA →
    r.hum.toNat ≤ 2805 ∧ 0 ≤ r.temp.toInt ∧ r.temp.toInt ≤ 2805 ∧ r.tneg = false
  /-- "The value −32768 never occurs" (10_state.md R41). -/
  tempNotMin : r.temp.toInt ≠ -32768
  /-- The range of CONV (10_state.md R42). -/
  convRange : -58662 ≤ r.conv.toInt ∧ r.conv.toInt ≤ 59301

/-- The invariant of the machine: legal parameters and the invariant of the registers. -/
structure State.Inv (s : State) : Prop where
  legal : s.params.Legal
  regs  : s.regs.Inv s.params

/-- The states of the runs that start right after a reset, with any legal parameters, either strap and any inputs
(70_reset_and_hazards.md R251). -/
inductive Reachable : State → Prop
  | afterReset (s : State) (strap : Variant) : s.params.Legal → s.regs = resetRegs strap → Reachable s
  | afterStep (s t : State) : Reachable s → step s = .next t → Reachable t

/-! ### Premises a claim about a reading may need -/

/-- No illegal word and no overrun so far: the premises `ILL = 0` and `OVR = 0` of 93_implementation_defined.md I3 and I4. -/
abbrev State.HostClean (s : State) : Prop := s.regs.ill = false ∧ s.regs.ovr = false

/-- The host's duty of 70_reset_and_hazards.md R260: `ticks` ticks between the accepting cycles of two READs last at least
MIN_READ_INTERVAL_US, at the nominal tick rate (log 11). -/
abbrev Params.IntervalKept (p : Params) (ticks : Nat) : Prop := p.minReadIntervalUs * 1000 ≤ ticks * p.tickPeriodNs

/-- What a test reads from an outcome: it is a next state that satisfies `good`. -/
def nextSatisfies (good : State → Bool) : Host.Outcome State Fault Refusal → Bool
  | .next t => good t
  | .fault _ => false
  | .refused _ => false

end Sys2Proof.Machine
end

