-- ==== Sys2Proof/Certificates/Slice0/Obligations.lean ====
section
/-! DEFINITION. The statements for the provers. Each says which sentence of the spec it formalises; OBLIGATIONS.json lists them. -/

open Sys2Proof Sys2Proof.Machine

/-! ### Encoding -/

/-- 30_encoding.md R88: the encoder's words, decoding an encoded command gives it back, and for NOP, BEGIN and READ encoding a
decoded word gives the word back exactly when its ARG is 0. -/
def Obligations.DecodeInvertsEncode : Prop :=
  (encode .nop = 0x00000000#32 ∧ encode .begin = 0x00000001#32 ∧ encode .read = 0x00000002#32 ∧
    ∀ v : Int, -32768 ≤ v → v ≤ 32767 →
      ((encode (.c2f v)).toNat : Int) = v % 2 ^ 16 * 2 ^ 16 + 3 ∧
      ((encode (.f2c v)).toNat : Int) = v % 2 ^ 16 * 2 ^ 16 + 4) ∧
  (∀ i : Instr, i.wellFormed = true → decode (encode i) = .command i) ∧
  (∀ (w : Word) (i : Instr), i = .nop ∨ i = .begin ∨ i = .read → decode w = .command i →
    (encode i = w ↔ w.extractLsb' 16 16 = 0))

/-- 30_encoding.md R86 with R83 and R84: the decoder gives every word exactly one of the six verdicts, by RSV and OP, with the
sign-extended ARG as the operand of C2F and F2C; legality does not depend on ARG. -/
def Obligations.DecoderGivesSixVerdicts : Prop :=
  (∀ w : Word,
    (w.extractLsb' 3 13 ≠ 0 → ∃ why, decode w = .illegal why) ∧
    (w.extractLsb' 3 13 = 0 →
      (w.extractLsb' 0 3 = 0 → decode w = .command .nop) ∧
      (w.extractLsb' 0 3 = 1 → decode w = .command .begin) ∧
      (w.extractLsb' 0 3 = 2 → decode w = .command .read) ∧
      (w.extractLsb' 0 3 = 3 → decode w = .command (.c2f ((w.extractLsb' 16 16).signExtend 32).toInt)) ∧
      (w.extractLsb' 0 3 = 4 → decode w = .command (.f2c ((w.extractLsb' 16 16).signExtend 32).toInt))) ∧
    (5 ≤ (w.extractLsb' 0 3).toNat → ∃ why, decode w = .illegal why)) ∧
  (∀ w w' : Word, w.extractLsb' 0 16 = w'.extractLsb' 0 16 →
    ((∃ i, decode w = .command i) ↔ ∃ i, decode w' = .command i))

/-- The opcode table (30_encoding.md section 5): with mask 0x0000FFFF the five matches select the five commands, every decoded
command is well formed, and C2F and F2C words are encoded back to themselves. -/
def Obligations.OpcodeTableSelectsTheCommands : Prop :=
  ∀ w : Word,
    (decode w = .command .nop ↔ w &&& 0x0000FFFF#32 = 0x0000#32) ∧
    (decode w = .command .begin ↔ w &&& 0x0000FFFF#32 = 0x0001#32) ∧
    (decode w = .command .read ↔ w &&& 0x0000FFFF#32 = 0x0002#32) ∧
    ((∃ c, decode w = .command (.c2f c) ∧ OperandFits c ∧ encode (.c2f c) = w) ↔ w &&& 0x0000FFFF#32 = 0x0003#32) ∧
    ((∃ f, decode w = .command (.f2c f) ∧ OperandFits f ∧ encode (.f2c f) = w) ↔ w &&& 0x0000FFFF#32 = 0x0004#32) ∧
    ((∃ why, decode w = .illegal why) ↔ 4 < (w &&& 0x0000FFFF#32).toNat)

/-- Words written out from 30_encoding.md and 95_test_vectors.md section 2.1 decode to the commands they stand for. -/
def Obligations.SpecWordsDecode : Prop :=
  decodeTableWord 32 0x12340000 = some .nop ∧
  decodeTableWord 32 0xABCD0001 = some .begin ∧
  decodeTableWord 32 0x00000002 = some .read ∧
  decodeTableWord 32 0x00FA0003 = some (.c2f 250) ∧
  decodeTableWord 32 0xFFFF0003 = some (.c2f (-1)) ∧
  decodeTableWord 32 0x80000004 = some (.f2c (-32768)) ∧
  decodeTableWord 32 0x00000005 = none ∧
  decodeTableWord 32 0x00008001 = none ∧
  decodeTableWord 32 0xFFFFFFFF = none

/-! ### The step -/

/-- 00_scope.md R11, 40_host_commands.md R101: in a cycle in which the host writes a command the step runs `exec` of that command, and
then, where a command was running, the sequencer's rule of the phase the cycle began in. In IDLE the step is `exec` alone. The order
of the two within the cycle is the model's (log 6, DEDUCED: 20_memory.md R74 says it does not matter). The second clause is about
`withFetchWord`, the model's choice of how a command comes to run (log 4, DESIGN CHOICE: a write to CMD with `rst = 0` and
`io_err = 0`). -/
def Obligations.StepRunsTheDecodedCommand : Prop :=
  (∀ (s t : State) (i : Instr), s.params.Legal → s.regs.phase.used = true → CommandWrite s.inputs (.command i) →
    exec i s = .next t →
    step s = .next (afterCycle t (sequencerCycle s.params s.inputs s.regs.phase t.regs)) ∧
    (s.regs.phase = .idle → step s = .next (afterCycle t t.regs))) ∧
  (∀ (s t : State) (i : Instr), s.params.Legal → s.regs.phase = .idle → i.wellFormed = true →
    exec i (s.withFetchWord 32 (encode i).toNat) = .next t →
    step (s.withFetchWord 32 (encode i).toNat) = .next (afterCycle t t.regs))

/-- The step answers a next state exactly when the parameters are in range (93_implementation_defined.md I12) and the cycle is a reset or
PHASE is one of the nine values (10_state.md R28); otherwise it stops under the name of the reason. -/
def Obligations.StepStopsOnlyOutOfRangeOrUnused : Prop :=
  ∀ s : State,
    (s.params.Legal → (s.inputs.rst = true ∨ s.regs.phase.used = true) → ∃ t, step s = .next t ∧ t.params = s.params) ∧
    (s.params.Legal → s.inputs.rst = false → s.regs.phase.used = false → step s = .fault .unusedPhase) ∧
    (¬s.params.Legal → step s = .refused .parametersOutOfRange)

/-! ### Reset -/

/-- 70_reset_and_hazards.md R250 and R251: a cycle with `rst = 1` writes every register, whatever the other inputs and the state are. -/
def Obligations.ResetCycleWritesEveryRegister : Prop :=
  ∀ s : State, s.params.Legal → s.inputs.rst = true →
    step s = .next (afterCycle s
      { phase := .idle, cnt := 0, bitIdx := 0, frame := 0, dqLow := false, variant := s.inputs.variant,
        init := false, valid := false, tneg := false, err := .none, ovr := false, ill := false,
        hum := 0, temp := 0, conv := 0 })

/-- 70_reset_and_hazards.md R252 (section 1): in the first cycle after a reset STATUS reads `VARIANT << 7`, HUM, TEMP and CONV read 0, the line is
released, and a command may be written in that very cycle. -/
def Obligations.FirstCycleAfterReset : Prop :=
  ∀ s t : State, s.inputs.rst = true → step s = .next t →
    (t.regs.phase = .idle ∧ t.regs.init = false) ∧
    busRead 1 t = (match s.inputs.variant with | .modelA => 0x00000000#32 | .modelB => 0x00000080#32) ∧
    busRead 2 t = 0 ∧ busRead 3 t = 0 ∧ busRead 4 t = 0 ∧ dqPullLow t = false ∧
    (CommandWrite t.inputs (.command .begin) → t.inputs.ioErr = false →
      ∃ u, step t = .next u ∧ u.regs.phase = .beginWait) ∧
    (CommandWrite t.inputs (.command .read) → t.inputs.ioErr = false →
      ∃ u, step t = .next u ∧ u.regs.phase = .startLow)

/-- The state after reset (its strap and parameters are the model's choice, log 2 and log 3) meets the invariant. -/
def Obligations.PowerOnStateMeetsInvariant : Prop := State.reset.Inv

/-! ### The host's reads and writes -/

/-- 10_state.md R45: the fields of the STATUS word, with the codes of R24, R28 and R37 written out; STATUS right after reset; a write to
STATUS has no effect. A read is a function of the state (20_memory.md R65), so it has no side effect. -/
def Obligations.StatusWordFields : Prop :=
  (∀ s : State,
    ((busRead 1 s).getLsbD 0 = decide (s.regs.phase ≠ .idle)) ∧
    ((busRead 1 s).getLsbD 1 = s.regs.init) ∧
    ((busRead 1 s).getLsbD 2 = s.regs.valid) ∧
    ((busRead 1 s).getLsbD 3 = s.regs.tneg) ∧
    (((busRead 1 s).extractLsb' 4 3).toNat = match s.regs.err with
      | .none => 0
      | .timeout => 1
      | .checksum => 2
      | .invalidSensorType => 3
      | .ioError => 4
      | .reserved k => 5 + k.val) ∧
    ((busRead 1 s).getLsbD 7 = decide (s.regs.variant = .modelB)) ∧
    ((busRead 1 s).getLsbD 8 = s.regs.ovr) ∧
    ((busRead 1 s).getLsbD 9 = s.regs.ill) ∧
    ((busRead 1 s).extractLsb' 10 2 = 0) ∧
    (((busRead 1 s).extractLsb' 12 4).toNat = match s.regs.phase with
      | .idle => 0
      | .beginWait => 1
      | .startLow => 2
      | .startRel => 3
      | .ackLow => 4
      | .ackHigh => 5
      | .bitLow => 6
      | .bitHigh => 7
      | .validate => 8
      | .unused k => 9 + k.val) ∧
    ((busRead 1 s).extractLsb' 16 6 = s.regs.bitIdx) ∧
    ((busRead 1 s).extractLsb' 22 10 = 0)) ∧
  (∀ (s : State) (strap : Variant), s.regs = resetRegs strap →
    (busRead 1 s).toNat = (match strap with | .modelA => 0 | .modelB => 2 ^ 7)) ∧
  (∀ (s : State) (i : Inputs), i.busAddr = 1 → step (s.withInputs i) = step (s.withInputs (withoutWrite i)))

/-- 10_state.md R46 and 20_memory.md R67: what reads of the other addresses return, and that a write to HUM, TEMP or CONV has no
effect. -/
def Obligations.DataRegisterReads : Prop :=
  ∀ s : State,
    (busRead 2 s).toNat = s.regs.hum.toNat ∧
    (busRead 3 s).toInt = s.regs.temp.toInt ∧
    busRead 4 s = s.regs.conv ∧
    (∀ a : BitVec 3, a = 0 ∨ 5 ≤ a.toNat → busRead a s = 0) ∧
    (∀ i : Inputs, i.busAddr = 2 ∨ i.busAddr = 3 ∨ i.busAddr = 4 →
      step (s.withInputs i) = step (s.withInputs (withoutWrite i)))

/-- 40_host_commands.md R101, 20_memory.md R65: a write to any address but CMD has no effect on any register. -/
def Obligations.WritesOffCmdHaveNoEffect : Prop :=
  ∀ (s : State) (i : Inputs), i.busAddr ≠ 0 → step (s.withInputs i) = step (s.withInputs (withoutWrite i))

/-! ### The commands -/

/-- 40_host_commands.md R104: NOP writes no register in any phase, and every word with low half 0 is a NOP. -/
def Obligations.NopDoesNothing : Prop :=
  (∀ s : State, exec .nop s = .next s) ∧
  (∀ w : Word, w.extractLsb' 0 16 = 0 → decode w = .command .nop)

/-- 40_host_commands.md section 2, BEGIN: what its acceptance writes, with a working and with a failing pad. -/
def Obligations.BeginAccepted : Prop :=
  ∀ s : State, s.regs.phase = .idle →
    (s.inputs.ioErr = false →
      exec .begin s = .next { s with regs := { s.regs with
        valid := false, hum := 0, temp := 0, tneg := false, dqLow := false,
        err := .none, cnt := 0, phase := .beginWait } }) ∧
    (s.inputs.ioErr = true →
      exec .begin s = .next { s with regs := { s.regs with
        valid := false, hum := 0, temp := 0, tneg := false, dqLow := false,
        err := .ioError, init := false } })

/-- 40_host_commands.md section 2, READ: what its acceptance writes, whatever INIT is, with a working and with a failing pad. -/
def Obligations.ReadAccepted : Prop :=
  ∀ s : State, s.regs.phase = .idle →
    (s.inputs.ioErr = false →
      exec .read s = .next { s with regs := { s.regs with
        valid := false, hum := 0, temp := 0, tneg := false, dqLow := true,
        err := .none, cnt := 0, phase := .startLow } }) ∧
    (s.inputs.ioErr = true →
      exec .read s = .next { s with regs := { s.regs with
        valid := false, hum := 0, temp := 0, tneg := false, dqLow := false,
        err := .ioError } })

/-- 40_host_commands.md R107: a BEGIN or READ written while busy writes OVR and nothing else, and the running command continues exactly as
if the write had not happened. -/
def Obligations.BusyBeginOrReadOnlySetsOverrun : Prop :=
  (∀ s : State, s.regs.phase ≠ .idle →
    exec .begin s = .next { s with regs := { s.regs with ovr := true } } ∧
    exec .read s = .next { s with regs := { s.regs with ovr := true } }) ∧
  (∀ (s : State) (i : Inputs), s.params.Legal → s.regs.phase.used = true → s.regs.phase ≠ .idle →
    CommandWrite i (.command .begin) ∨ CommandWrite i (.command .read) →
    ∃ t, step (s.withInputs (withoutWrite i)) = .next t ∧
      step (s.withInputs i) = .next { t with regs := { t.regs with ovr := true } })

/-- 40_host_commands.md R108: an illegal word written to CMD sets ILL and changes nothing else, in any phase. -/
def Obligations.IllegalWordOnlySetsIll : Prop :=
  ∀ (s : State) (i : Inputs) (why : IllegalWord), s.params.Legal → s.regs.phase.used = true → CommandWrite i (.illegal why) →
    ∃ t, step (s.withInputs (withoutWrite i)) = .next t ∧
      step (s.withInputs i) = .next { t with regs := { t.regs with ill := true } }

/-- 40_host_commands.md R105: C2F writes CONV, and nothing else, in any phase, with the operand every word of OP 3 gives; the rule's
corner cases and its example. -/
def Obligations.C2fWritesConv : Prop :=
  (∀ (s : State) (c : Int), OperandFits c →
    ∃ v : Word, exec (.c2f c) s = .next { s with regs := { s.regs with conv := v } } ∧
      v.toInt = (2 * (9 * c) + 5) / 10 + 320) ∧
  (∀ w : Word, w.extractLsb' 0 16 = 3 → decode w = .command (.c2f ((w.extractLsb' 16 16).signExtend 32).toInt)) ∧
  (∀ (s : State) (i : Inputs) (c : Int), s.params.Legal → s.regs.phase.used = true → CommandWrite i (.command (.c2f c)) →
    ∃ t, step (s.withInputs (withoutWrite i)) = .next t ∧
      ∃ v, step (s.withInputs i) = .next { t with regs := { t.regs with conv := v } }) ∧
  (celsiusToFahrenheit (-400) = -400 ∧ celsiusToFahrenheit 32767 = 59301 ∧ celsiusToFahrenheit (-32768) = -58662) ∧
  (decode 0x00FA0003#32 = .command (.c2f 250) ∧ celsiusToFahrenheit 250 = 770)

/-- 40_host_commands.md R106: F2C writes CONV, and nothing else, in any phase, with the operand every word of OP 4 gives; the rule's
corner cases and its example. -/
def Obligations.F2cWritesConv : Prop :=
  (∀ (s : State) (f : Int), OperandFits f →
    ∃ v : Word, exec (.f2c f) s = .next { s with regs := { s.regs with conv := v } } ∧
      v.toInt = (2 * (5 * (f - 320)) + 9) / 18) ∧
  (∀ w : Word, w.extractLsb' 0 16 = 4 → decode w = .command (.f2c ((w.extractLsb' 16 16).signExtend 32).toInt)) ∧
  (∀ (s : State) (i : Inputs) (f : Int), s.params.Legal → s.regs.phase.used = true → CommandWrite i (.command (.f2c f)) →
    ∃ t, step (s.withInputs (withoutWrite i)) = .next t ∧
      ∃ v, step (s.withInputs i) = .next { t with regs := { t.regs with conv := v } }) ∧
  (fahrenheitToCelsius 320 = 0 ∧ fahrenheitToCelsius (-32768) = -18382 ∧ fahrenheitToCelsius 32767 = 18026) ∧
  (decode 0x03020004#32 = .command (.f2c 770) ∧ fahrenheitToCelsius 770 = 250)

/-- The frame of the five commands: what a command leaves unchanged when `exec` gives a next state. The block has no memory
(20_memory.md R60), so the frame speaks of every register, every host read, and the model's own fields. -/
def Obligations.CommandFrame : Prop :=
  ∀ (i : Instr) (s t : State), exec i s = .next t →
    (t.params = s.params ∧ t.pending = s.pending ∧ t.cycle = s.cycle) ∧
    (t.regs.variant = s.regs.variant ∧ t.regs.bitIdx = s.regs.bitIdx ∧ t.regs.frame = s.regs.frame ∧
      t.regs.ill = s.regs.ill) ∧
    (i = .nop → t.regs = s.regs) ∧
    ((∃ c, i = .c2f c) ∨ (∃ f, i = .f2c f) →
      t.regs = { s.regs with conv := t.regs.conv } ∧ ∀ a : BitVec 3, a ≠ 4 → busRead a t = busRead a s) ∧
    (i = .begin ∨ i = .read → t.regs.conv = s.regs.conv ∧
      ∀ a : BitVec 3, a ≠ 1 → a ≠ 2 → a ≠ 3 → busRead a t = busRead a s) ∧
    (i = .read → t.regs.init = s.regs.init) ∧
    (s.regs.phase = .idle → t.regs.ovr = s.regs.ovr) ∧
    (s.regs.phase ≠ .idle → i = .begin ∨ i = .read → t.regs = { s.regs with ovr := t.regs.ovr })

/-! ### The wait phases -/

/-- 41_signalling.md section 2: BEGIN_WAIT counts ticks and, at the last, sets INIT and returns to IDLE; a cycle without a tick changes
nothing, and `io_err` is not read. -/
def Obligations.BeginWaitCycle : Prop :=
  ∀ s : State, s.params.Legal → QuietBus s.inputs → s.regs.phase = .beginWait → s.regs.cnt < s.params.beginWaitTicks →
    (s.inputs.tick = false → step s = .next (afterCycle s s.regs)) ∧
    (s.inputs.tick = true → s.regs.cnt + 1 = s.params.beginWaitTicks →
      step s = .next (afterCycle s { s.regs with init := true, cnt := 0, phase := .idle })) ∧
    (s.inputs.tick = true → s.regs.cnt + 1 < s.params.beginWaitTicks →
      step s = .next (afterCycle s { s.regs with cnt := s.regs.cnt + 1 }))

/-- 41_signalling.md section 3, START_LOW: HOLD follows the variant; the counting cycles do not read `io_err`; the last tick releases the
line and enters START_REL, or ends the READ with IO_ERROR. -/
def Obligations.StartLowCycle : Prop :=
  ∀ (s : State) (hold : Nat), s.params.Legal → QuietBus s.inputs → s.regs.phase = .startLow →
    (s.regs.variant = .modelA → hold = s.params.startHoldATicks) →
    (s.regs.variant = .modelB → hold = s.params.startHoldBTicks) → s.regs.cnt < hold →
    (s.inputs.tick = false → step s = .next (afterCycle s s.regs)) ∧
    (s.inputs.tick = true → s.regs.cnt + 1 < hold →
      step s = .next (afterCycle s { s.regs with cnt := s.regs.cnt + 1 })) ∧
    (s.inputs.tick = true → s.regs.cnt + 1 = hold → s.inputs.ioErr = false →
      step s = .next (afterCycle s { s.regs with dqLow := false, cnt := 0, phase := .startRel })) ∧
    (s.inputs.tick = true → s.regs.cnt + 1 = hold → s.inputs.ioErr = true →
      step s = .next (afterCycle s { s.regs with
        err := .ioError, phase := .idle, dqLow := false, cnt := 0, bitIdx := 0, frame := 0,
        valid := false, hum := 0, temp := 0, tneg := false }))

/-- 41_signalling.md section 3, START_REL: counts RELEASE_TICKS ticks with neither `io_err` nor `dq_in` read, then enters ACK_LOW. -/
def Obligations.StartRelCycle : Prop :=
  ∀ s : State, s.params.Legal → QuietBus s.inputs → s.regs.phase = .startRel → s.regs.cnt < s.params.releaseTicks →
    (s.inputs.tick = false → step s = .next (afterCycle s s.regs)) ∧
    (s.inputs.tick = true → s.regs.cnt + 1 = s.params.releaseTicks →
      step s = .next (afterCycle s { s.regs with cnt := 0, phase := .ackLow })) ∧
    (s.inputs.tick = true → s.regs.cnt + 1 < s.params.releaseTicks →
      step s = .next (afterCycle s { s.regs with cnt := s.regs.cnt + 1 }))

/-- 41_signalling.md section 4: a wait phase of length N entered with CNT = 0 lasts, whatever the host writes meanwhile, through every
schedule with fewer than N ticks, with CNT the ticks so far, and is left at the cycle of the N-th tick. -/
def Obligations.WaitPhasesEndAtTheNthTick : Prop :=
  ∀ (s : State) (n : Nat) (ins rest : List Inputs), s.params.Legal →
    waitLength s.params s.regs.variant s.regs.phase = some n → s.regs.cnt = 0 →
    s.pending = ins ++ rest → NoReset ins →
    (tickCount ins < n →
      ∃ t, Host.Core.run core ins.length s = .next t ∧ t.pending = rest ∧
        t.regs.phase = s.regs.phase ∧ t.regs.cnt = tickCount ins ∧ t.regs.dqLow = s.regs.dqLow) ∧
    (∀ last ∈ ins.getLast?, tickCount ins = n → last.tick = true →
      ∃ t, Host.Core.run core ins.length s = .next t ∧ t.pending = rest ∧ t.regs.cnt = 0 ∧
        (s.regs.phase = .beginWait → t.regs.phase = .idle ∧ t.regs.init = true) ∧
        (s.regs.phase = .startLow → last.ioErr = false → t.regs.phase = .startRel ∧ t.regs.dqLow = false) ∧
        (s.regs.phase = .startLow → last.ioErr = true →
          t.regs.phase = .idle ∧ t.regs.dqLow = false ∧ t.regs.err = .ioError) ∧
        (s.regs.phase = .startRel → t.regs.phase = .ackLow))

/-- 41_signalling.md R137: two BEGIN commands in a row that both succeed leave the same registers as one. Between the end of the first
and the second any number of cycles may pass in IDLE, in which the host only reads (20_memory.md R70). -/
def Obligations.BeginIsIdempotent : Prop :=
  ∀ (s : State) (c₁ c₂ : Inputs) (w₁ idle w₂ rest : List Inputs), s.params.Legal → s.regs.phase = .idle →
    CommandWrite c₁ (.command .begin) → c₁.ioErr = false → (∀ i ∈ w₁, QuietBus i) →
    tickCount w₁ = s.params.beginWaitTicks → endsOnTick w₁ = true → (∀ i ∈ idle, QuietBus i) →
    CommandWrite c₂ (.command .begin) → c₂.ioErr = false → (∀ i ∈ w₂, QuietBus i) →
    tickCount w₂ = s.params.beginWaitTicks → endsOnTick w₂ = true →
    s.pending = (c₁ :: w₁) ++ (idle ++ ((c₂ :: w₂) ++ rest)) →
    ∃ t u, Host.Core.run core (c₁ :: w₁).length s = .next t ∧
      Host.Core.run core ((c₁ :: w₁).length + idle.length + (c₂ :: w₂).length) s = .next u ∧
      t.regs.phase = .idle ∧ t.regs.init = true ∧ t.regs.err = .none ∧ t.regs.valid = false ∧ u.regs = t.regs

/-! ### The measurement phases -/

/-- 42_capture.md R151 and R152: in a tick cycle of a measurement phase the pad's error ends the READ with IO_ERROR before anything
else is examined; a sample at the expected level counts, and the sample after MAX_CYCLES of them is the Timeout. -/
def Obligations.MeasurementCountsOrFails : Prop :=
  ∀ (s : State) (level : Bool), s.params.Legal → QuietBus s.inputs → expectedLevel s.regs.phase = some level →
    s.inputs.tick = true →
    (s.inputs.ioErr = true →
      step s = .next (afterCycle s { s.regs with
        err := .ioError, phase := .idle, dqLow := false, cnt := 0, bitIdx := 0, frame := 0,
        valid := false, hum := 0, temp := 0, tneg := false })) ∧
    (s.inputs.ioErr = false → s.inputs.dqIn = level → s.regs.cnt + 1 > s.params.maxCycles →
      step s = .next (afterCycle s { s.regs with
        err := .timeout, phase := .idle, dqLow := false, cnt := 0, bitIdx := 0, frame := 0,
        valid := false, hum := 0, temp := 0, tneg := false })) ∧
    (s.inputs.ioErr = false → s.inputs.dqIn = level → s.regs.cnt + 1 ≤ s.params.maxCycles →
      step s = .next (afterCycle s { s.regs with cnt := s.regs.cnt + 1 }))

/-- 42_capture.md R153: the sample that ends an acknowledgment or a separator is the first sample of the next pulse. -/
def Obligations.EndingSampleStartsTheNextPulse : Prop :=
  ∀ s : State, s.params.Legal → QuietBus s.inputs → s.inputs.tick = true → s.inputs.ioErr = false →
    (s.regs.phase = .ackLow → s.inputs.dqIn = true →
      step s = .next (afterCycle s { s.regs with phase := .ackHigh, cnt := 1 })) ∧
    (s.regs.phase = .ackHigh → s.inputs.dqIn = false →
      step s = .next (afterCycle s { s.regs with phase := .bitLow, cnt := 1 })) ∧
    (s.regs.phase = .bitLow → s.inputs.dqIn = true →
      step s = .next (afterCycle s { s.regs with phase := .bitHigh, cnt := 1 }))

/-- 42_capture.md R154 and R156: the end of a data high pulse shifts its bit into FRAME at bit 0, 1 exactly when the width is above
BIT_THRESHOLD, and counts it; the fortieth bit enters VALIDATE, an earlier one the next separator. -/
def Obligations.DataPulseEndShiftsItsBitIn : Prop :=
  ∀ s : State, s.params.Legal → QuietBus s.inputs → s.inputs.tick = true → s.inputs.ioErr = false →
    s.regs.phase = .bitHigh → s.inputs.dqIn = false →
    ∃ f : Frame,
      f.getLsbD 0 = decide (s.regs.cnt > s.params.bitThreshold) ∧
      (∀ k, k < 39 → f.getLsbD (k + 1) = s.regs.frame.getLsbD k) ∧
      (s.regs.bitIdx.toNat + 1 = 40 →
        step s = .next (afterCycle s { s.regs with frame := f, bitIdx := 40, cnt := 0, phase := .validate })) ∧
      (s.regs.bitIdx.toNat + 1 < 40 →
        step s = .next (afterCycle s { s.regs with
          frame := f, bitIdx := s.regs.bitIdx + 1, cnt := 1, phase := .bitLow }))

/-- 42_capture.md section 3: a capture reads the run lengths of the waveform. From the entry of ACK_LOW, whatever the host writes
and however many cycles have no tick, a waveform whose pulses have widths 1 to MAX_CYCLES (the first acknowledgment may be
missing) leads to VALIDATE with 40 bits, bit k of the reception order being 1 exactly when its high pulse was longer than
BIT_THRESHOLD, the first bit at FRAME[39]. -/
def Obligations.CaptureReadsTheRunLengths : Prop :=
  ∀ (s : State) (ackLow ackHigh : Nat) (low high : Nat → Nat) (ins rest : List Inputs),
    s.params.Legal → s.regs.phase = .ackLow → s.regs.cnt = 0 → s.regs.bitIdx = 0 →
    ackLow ≤ s.params.maxCycles → 1 ≤ ackHigh → ackHigh ≤ s.params.maxCycles →
    (∀ k, k < 40 → 1 ≤ low k ∧ low k ≤ s.params.maxCycles ∧ 1 ≤ high k ∧ high k ≤ s.params.maxCycles) →
    s.pending = ins ++ rest → NoReset ins → PadWorks ins → endsOnTick ins = true →
    lineSamples ins = captureSamples ackLow ackHigh low high →
    ∃ t, Host.Core.run core ins.length s = .next t ∧ t.pending = rest ∧
      t.regs.phase = .validate ∧ t.regs.cnt = 0 ∧ t.regs.bitIdx = 40 ∧
      ∀ k, k < 40 → t.regs.frame.getLsbD (39 - k) = decide (high k > s.params.bitThreshold)

/-- 42_capture.md R159 (section 3): a line that stays at the expected level of a measurement phase, CNT samples of it seen already, keeps the
phase up to MAX_CYCLES samples and ends the READ with TIMEOUT at sample MAX_CYCLES + 1. -/
def Obligations.ConstantLineTimesOut : Prop :=
  ∀ (s : State) (level : Bool) (n : Nat) (ins rest : List Inputs), s.params.Legal →
    expectedLevel s.regs.phase = some level → s.regs.cnt ≤ s.params.maxCycles →
    s.pending = ins ++ rest → NoReset ins → PadWorks ins → lineSamples ins = pulse level n →
    (s.regs.cnt + n ≤ s.params.maxCycles →
      ∃ t, Host.Core.run core ins.length s = .next t ∧ t.pending = rest ∧
        t.regs.phase = s.regs.phase ∧ t.regs.cnt = s.regs.cnt + n) ∧
    (s.regs.cnt + n = s.params.maxCycles + 1 → endsOnTick ins = true →
      ∃ t, Host.Core.run core ins.length s = .next t ∧ t.pending = rest ∧
        t.regs.phase = .idle ∧ t.regs.err = .timeout ∧ t.regs.valid = false ∧ t.regs.cnt = 0)

/-- 70_reset_and_hazards.md R271 (section 4): a READ that has just been accepted is back in IDLE within HOLD + RELEASE_TICKS +
82 × MAX_CYCLES + 1 tick cycles plus one clock cycle, whatever the line, the pad and the host do. -/
def Obligations.ReadIsBusyForABoundedTime : Prop :=
  ∀ (s : State) (hold : Nat) (ins rest : List Inputs), s.Inv → s.regs.phase = .startLow → s.regs.cnt = 0 →
    waitLength s.params s.regs.variant .startLow = some hold →
    s.pending = ins ++ rest → NoReset ins →
    tickCount ins = hold + s.params.releaseTicks + 82 * s.params.maxCycles + 1 →
    ∃ k t, k ≤ ins.length + 1 ∧ Host.Core.run core k s = .next t ∧ t.regs.phase = .idle

/-- 70_reset_and_hazards.md R272 (section 4): a READ that has just been accepted reaches VALIDATE in no schedule with fewer than HOLD +
RELEASE_TICKS + 82 ticks, whatever the line, the pad and the host do. -/
def Obligations.ValidateNeedsAMinimumOfTicks : Prop :=
  ∀ (s t : State) (hold k : Nat) (ins rest : List Inputs), s.Inv → s.regs.phase = .startLow → s.regs.cnt = 0 →
    waitLength s.params s.regs.variant .startLow = some hold →
    s.pending = ins ++ rest → NoReset ins → tickCount ins < hold + s.params.releaseTicks + 82 →
    k ≤ ins.length → Host.Core.run core k s = .next t → t.regs.phase ≠ .validate

/-- 70_reset_and_hazards.md R256 (section 2): without ticks a wait or measurement phase never advances. -/
def Obligations.NoTickNoProgress : Prop :=
  ∀ (s : State) (ins rest : List Inputs), s.params.Legal → s.regs.phase.used = true →
    s.regs.phase ≠ .idle → s.regs.phase ≠ .validate →
    s.pending = ins ++ rest → (∀ i ∈ ins, QuietBus i ∧ i.tick = false) →
    ∃ t, Host.Core.run core ins.length s = .next t ∧ t.regs = s.regs ∧ t.pending = rest

/-! ### Validation and unit decode -/

/-- 43_validate_decode.md section 2: a frame whose checksum fails ends the READ with CHECKSUM in one cycle, whatever the inputs are,
and none of its bytes stays in a register. -/
def Obligations.BadChecksumEndsTheRead : Prop :=
  ∀ s : State, s.params.Legal → QuietBus s.inputs → s.regs.phase = .validate → ¬ChecksumHolds s.regs.frame →
    step s = .next (afterCycle s { s.regs with
      err := .checksum, phase := .idle, dqLow := false, cnt := 0, bitIdx := 0, frame := 0,
      valid := false, hum := 0, temp := 0, tneg := false })

/-- 43_validate_decode.md R184 (section 3) and section 2: a Model A frame whose checksum holds becomes a valid reading in one cycle,
whatever the inputs are. -/
def Obligations.ModelAReading : Prop :=
  ∀ s : State, s.params.Legal → QuietBus s.inputs → s.regs.phase = .validate → ChecksumHolds s.regs.frame →
    s.regs.variant = .modelA →
    ∃ h t : Half,
      h.toNat = byteValue s.regs.frame 0 * 10 + byteValue s.regs.frame 1 ∧
      t.toInt = byteValue s.regs.frame 2 * 10 + byteValue s.regs.frame 3 ∧
      step s = .next (afterCycle s { s.regs with
        hum := h, temp := t, tneg := false, valid := true, frame := 0, bitIdx := 0, cnt := 0, phase := .idle })

/-- 43_validate_decode.md R185 (section 3) and section 2: a Model B frame whose checksum holds becomes a valid reading in one cycle,
whatever the inputs are; the temperature is sign and magnitude. -/
def Obligations.ModelBReading : Prop :=
  ∀ s : State, s.params.Legal → QuietBus s.inputs → s.regs.phase = .validate → ChecksumHolds s.regs.frame →
    s.regs.variant = .modelB →
    ∃ h t : Half,
      h.toNat = byteValue s.regs.frame 0 * 256 + byteValue s.regs.frame 1 ∧
      t.toInt = (if 128 ≤ byteValue s.regs.frame 2 then -1 else 1) *
        (byteValue s.regs.frame 2 % 128 * 256 + byteValue s.regs.frame 3 : Int) ∧
      step s = .next (afterCycle s { s.regs with
        hum := h, temp := t, tneg := decide (128 ≤ byteValue s.regs.frame 2),
        valid := true, frame := 0, bitIdx := 0, cnt := 0, phase := .idle })

/-- 43_validate_decode.md R189: flipping any single bit of a frame whose checksum holds makes the checksum fail. -/
def Obligations.SingleBitFlipFailsTheChecksum : Prop :=
  ∀ (f : Frame) (k : Nat), k < 40 → checksumOk f = true → checksumOk (f ^^^ BitVec.twoPow 40 k) = false

/-- 43_validate_decode.md R188 (section 3): the all-zero frame passes and reads 0 in both variants; five bytes 0xFF fail. -/
def Obligations.ZeroFramePassesAllOnesFails : Prop :=
  (∀ s : State, s.params.Legal → QuietBus s.inputs → s.regs.phase = .validate → s.regs.frame = 0 →
    ∃ t, step s = .next t ∧ t.regs.valid = true ∧ t.regs.hum = 0 ∧ t.regs.temp = 0 ∧ t.regs.tneg = false) ∧
  (∀ s : State, s.params.Legal → QuietBus s.inputs → s.regs.phase = .validate → s.regs.frame = 0xFFFFFFFFFF#40 →
    ∃ t, step s = .next t ∧ t.regs.valid = false ∧ t.regs.err = .checksum)

/-! ### Invariants and whole-machine rules -/

/-- Every step keeps the invariant, from every state that meets it. -/
def Obligations.StepKeepsInvariant : Prop :=
  ∀ s t : State, s.Inv → step s = .next t → t.Inv

/-- A state that meets the invariant never stops: the step answers a next state. -/
def Obligations.InvariantStatesNeverStop : Prop :=
  ∀ s : State, s.Inv → ∃ t, step s = .next t ∧ t.Inv

/-- 10_state.md R43: in every state reachable from reset in which PHASE = IDLE, the hidden registers are clear and the line is
released. -/
def Obligations.ReachableIdleIsClean : Prop :=
  ∀ s : State, Reachable s → s.regs.phase = .idle →
    s.regs.cnt = 0 ∧ s.regs.bitIdx = 0 ∧ s.regs.frame = 0 ∧ s.regs.dqLow = false

/-- 10_state.md R27 (section 3): PHASE moves as the rows of the transition table say, and keeps its value where no row applies. -/
def Obligations.PhaseMovesOnlyByTheTable : Prop :=
  ∀ s t : State, s.Inv → step s = .next t →
    (∀ ph, TransitionRow s.params s.regs s.inputs ph → t.regs.phase = ph) ∧
    ((∀ ph, ¬TransitionRow s.params s.regs s.inputs ph) → t.regs.phase = s.regs.phase)

/-- 60_exceptions.md R224 and R225 (section 3): an error of a running command leaves exactly the cleanup state with its code, in the cycle
of the failure; only the host's own flags and CONV may differ besides. -/
def Obligations.ErrorLeavesTheCleanState : Prop :=
  ∀ s t : State, s.Inv → step s = .next t → s.regs.phase ≠ .idle → t.regs.err ≠ .none →
    (t.regs.err = .timeout ∨ t.regs.err = .checksum ∨ t.regs.err = .ioError) ∧
    t.regs = { s.regs with
      err := t.regs.err, phase := .idle, dqLow := false, cnt := 0, bitIdx := 0, frame := 0,
      valid := false, hum := 0, temp := 0, tneg := false,
      ovr := t.regs.ovr, ill := t.regs.ill, conv := t.regs.conv }

/-- 60_exceptions.md R233: in IDLE, in a cycle without reset and bus write, no register changes. -/
def Obligations.IdleIsQuiescent : Prop :=
  ∀ s : State, s.params.Legal → s.regs.phase = .idle → QuietBus s.inputs → step s = .next (afterCycle s s.regs)

/-- 20_memory.md section 5: between commands the outcome stays: in IDLE, in a cycle without reset in which no BEGIN or READ is
written, ERR, VALID, INIT, HUM, TEMP and TNEG keep their values, and while a command runs they keep theirs up to the cycle
that ends it. -/
def Obligations.OutcomeStaysUntilTheNextCommand : Prop :=
  ∀ s t : State, s.inputs.rst = false → step s = .next t →
    ((s.regs.phase = .idle ∧ ¬CommandWrite s.inputs (.command .begin) ∧ ¬CommandWrite s.inputs (.command .read)) ∨
      (s.regs.phase ≠ .idle ∧ t.regs.phase ≠ .idle)) →
    t.regs.err = s.regs.err ∧ t.regs.valid = s.regs.valid ∧ t.regs.init = s.regs.init ∧
    t.regs.hum = s.regs.hum ∧ t.regs.temp = s.regs.temp ∧ t.regs.tneg = s.regs.tneg

/-- 10_state.md section 5, INIT: it becomes 1 exactly at the last tick of BEGIN_WAIT, 0 exactly by a reset or by a BEGIN accepted with a
failing pad, and every other cycle keeps it; READ never changes it. -/
def Obligations.InitChangesExactly : Prop :=
  ∀ s t : State, step s = .next t →
    (s.inputs.rst = true → t.regs.init = false) ∧
    (s.regs.phase = .idle → CommandWrite s.inputs (.command .begin) → s.inputs.ioErr = true → t.regs.init = false) ∧
    (s.inputs.rst = false → s.regs.phase = .beginWait → s.inputs.tick = true → s.regs.cnt + 1 = s.params.beginWaitTicks →
      t.regs.init = true) ∧
    (s.inputs.rst = false →
      ¬(s.regs.phase = .idle ∧ CommandWrite s.inputs (.command .begin) ∧ s.inputs.ioErr = true) →
      ¬(s.regs.phase = .beginWait ∧ s.inputs.tick = true ∧ s.regs.cnt + 1 = s.params.beginWaitTicks) →
      t.regs.init = s.regs.init)

/-- 10_state.md section 5, VALID: after a step it is 1 exactly where a validation passed in the cycle, or where it was 1 and the block
stayed in IDLE with no BEGIN or READ written and no reset. -/
def Obligations.ValidExactly : Prop :=
  ∀ s t : State, s.Inv → step s = .next t →
    (t.regs.valid = true ↔ s.inputs.rst = false ∧
      ((s.regs.phase = .validate ∧ ChecksumHolds s.regs.frame) ∨
        (s.regs.valid = true ∧ s.regs.phase = .idle ∧
          ¬CommandWrite s.inputs (.command .begin) ∧ ¬CommandWrite s.inputs (.command .read))))

/-- 10_state.md R26 and section 4, DQ_LOW: the output `busy` and STATUS[0] are both BUSY, and in every state reachable from reset the
block pulls the line low exactly in START_LOW. -/
def Obligations.OutputsFollowThePhase : Prop :=
  (∀ s : State, busyOut s = decide (s.regs.phase ≠ .idle) ∧ (busRead 1 s).getLsbD 0 = decide (s.regs.phase ≠ .idle)) ∧
  (∀ s : State, Reachable s → (dqPullLow s = true ↔ s.regs.phase = .startLow))

/-- 10_state.md R38 and R39: OVR becomes 1 exactly by a BEGIN or READ written while busy, ILL exactly by an illegal word, and
only reset clears them. -/
def Obligations.StickyFlagsExactly : Prop :=
  ∀ s t : State, step s = .next t →
    (s.inputs.rst = true → t.regs.ovr = false ∧ t.regs.ill = false) ∧
    (s.inputs.rst = false →
      (t.regs.ovr = true ↔ s.regs.ovr = true ∨ (s.regs.phase ≠ .idle ∧
        (CommandWrite s.inputs (.command .begin) ∨ CommandWrite s.inputs (.command .read)))) ∧
      (t.regs.ill = true ↔ s.regs.ill = true ∨ ∃ why, CommandWrite s.inputs (.illegal why)))

/-- 10_state.md R42: CONV holds the result of the most recent conversion, only C2F, F2C and reset write it, and it stays in
−58662..59301. -/
def Obligations.ConvWrittenOnlyByConversions : Prop :=
  ∀ s t : State, step s = .next t →
    (∀ c, CommandWrite s.inputs (.command (.c2f c)) → t.regs.conv.toInt = (18 * c + 5) / 10 + 320) ∧
    (∀ f, CommandWrite s.inputs (.command (.f2c f)) → t.regs.conv.toInt = (10 * (f - 320) + 9) / 18) ∧
    (s.inputs.rst = true → t.regs.conv = 0) ∧
    (s.inputs.rst = false → (∀ c, ¬CommandWrite s.inputs (.command (.c2f c))) →
      (∀ f, ¬CommandWrite s.inputs (.command (.f2c f))) → t.regs.conv = s.regs.conv) ∧
    (-58662 ≤ s.regs.conv.toInt ∧ s.regs.conv.toInt ≤ 59301 →
      -58662 ≤ t.regs.conv.toInt ∧ t.regs.conv.toInt ≤ 59301)

/-! ### What a step does not depend on -/

/-- 60_exceptions.md R222: outside the four kinds of pin operation `io_err` has no effect. -/
def Obligations.IoErrReadOnlyAtPinOperations : Prop :=
  ∀ (s : State) (i : Inputs) (b : Bool), ¬PinOperation s.params s.regs i →
    step (s.withInputs { i with ioErr := b }) = step (s.withInputs i)

/-- 42_capture.md section 1: outside the tick cycles of the measurement phases no rule reads the line. -/
def Obligations.LineReadOnlyAtSamples : Prop :=
  ∀ (s : State) (i : Inputs) (b : Bool), ¬((expectedLevel s.regs.phase).isSome = true ∧ i.tick = true) →
    step (s.withInputs { i with dqIn := b }) = step (s.withInputs i)

/-- 10_state.md R33: VARIANT takes the strap in every reset cycle, keeps its value in every other cycle whatever the strap does, and is
read as STATUS[7]. -/
def Obligations.VariantTakesTheStrapOnlyInReset : Prop :=
  (∀ s t : State, step s = .next t →
    t.regs.variant = if s.inputs.rst then s.inputs.variant else s.regs.variant) ∧
  (∀ (s : State) (i : Inputs) (strap : Variant), i.rst = false →
    step (s.withInputs { i with variant := strap }) = step (s.withInputs i)) ∧
  (∀ s : State, (busRead 1 s).getLsbD 7 = decide (s.regs.variant = .modelB))

/-- 20_memory.md R74 (section 5): the order in which the host's write and the sequencer's step are applied within a cycle does not matter,
and no host write changes what a running command does. -/
def Obligations.HostWriteAndSequencerDoNotCompete : Prop :=
  (∀ (i : Instr) (s t : State), s.regs.phase ≠ .idle → exec i s = .next t →
    sequencerCycle s.params s.inputs s.regs.phase t.regs =
      { sequencerCycle s.params s.inputs s.regs.phase s.regs with
        ovr := t.regs.ovr, ill := t.regs.ill, conv := t.regs.conv }) ∧
  (∀ (s : State) (i j : Inputs) (t u : State), s.regs.phase ≠ .idle →
    step (s.withInputs i) = .next t →
    step (s.withInputs { i with busWr := j.busWr, busAddr := j.busAddr, busWdata := j.busWdata }) = .next u →
    u.regs = { t.regs with ovr := u.regs.ovr, ill := u.regs.ill, conv := u.regs.conv })

/-! ### Arithmetic and parameters -/

/-- 44_temperature_scale.md R200: `rdiv(n, d)` is the floor of (2n + d) / (2d), the integer nearest to n / d; a tie cannot occur. -/
def Obligations.RdivIsTheNearestInteger : Prop :=
  (∀ n d : Int, 0 < d → d % 2 = 1 →
    (rdiv n d : Int) = ⌊((2 * n + d : Int) : ℚ) / ((2 * d : Int) : ℚ)⌋ ∧
    (∀ k : Int, 2 * |d * rdiv n d - n| ≤ 2 * |d * k - n|) ∧
    2 * |d * rdiv n d - n| < d ∧
    (∀ k : Int, 2 * n ≠ d * (2 * k + 1))) ∧
  rdiv (-9) 5 = -2

/-- 44_temperature_scale.md R204: multiples of 5 convert exactly, and the errors are at most 0.4 and 4/9 tenths. -/
def Obligations.ConversionErrorBounds : Prop :=
  (∀ c : Int, OperandFits c → c % 5 = 0 → 5 * celsiusToFahrenheit c = 9 * c + 1600) ∧
  (∀ c : Int, OperandFits c → |5 * celsiusToFahrenheit c - (9 * c + 1600)| ≤ 2) ∧
  (∀ f : Int, OperandFits f → |9 * fahrenheitToCelsius f - 5 * (f - 320)| ≤ 4)

/-- 44_temperature_scale.md R205: the output ranges with their ends; both fit 17-bit two's complement, and CONV never overflows. -/
def Obligations.ConversionRanges : Prop :=
  (∀ c : Int, OperandFits c →
    -58662 ≤ celsiusToFahrenheit c ∧ celsiusToFahrenheit c ≤ 59301 ∧
    (BitVec.ofInt 17 (celsiusToFahrenheit c)).toInt = celsiusToFahrenheit c ∧
    (BitVec.ofInt 32 (celsiusToFahrenheit c)).toInt = celsiusToFahrenheit c) ∧
  (∀ f : Int, OperandFits f →
    -18382 ≤ fahrenheitToCelsius f ∧ fahrenheitToCelsius f ≤ 18026 ∧
    (BitVec.ofInt 17 (fahrenheitToCelsius f)).toInt = fahrenheitToCelsius f ∧
    (BitVec.ofInt 32 (fahrenheitToCelsius f)).toInt = fahrenheitToCelsius f) ∧
  (celsiusToFahrenheit (-32768) = -58662 ∧ celsiusToFahrenheit 32767 = 59301) ∧
  (fahrenheitToCelsius (-32768) = -18382 ∧ fahrenheitToCelsius 32767 = 18026)

/-- 44_temperature_scale.md R206: the round trip is exact on exactly the operands whose C2F result fits ARG; the reverse composition is
not the identity. -/
def Obligations.ConversionRoundTrip : Prop :=
  (∀ c : Int, -18382 ≤ c → c ≤ 18026 → fahrenheitToCelsius (celsiusToFahrenheit c) = c) ∧
  (∀ c : Int, OperandFits c → (OperandFits (celsiusToFahrenheit c) ↔ -18382 ≤ c ∧ c ≤ 18026)) ∧
  (celsiusToFahrenheit 18026 = 32767 ∧ celsiusToFahrenheit (-18382) = -32768 ∧
    celsiusToFahrenheit 18027 = 32769 ∧ celsiusToFahrenheit (-18383) = -32769) ∧
  (fahrenheitToCelsius 321 = 1 ∧ celsiusToFahrenheit 1 = 322)

/-- 00_scope.md R7: CNT_W is the least width that meets the two conditions, it is the ceiling of a binary logarithm, with the
defaults it is 20, and with this width the upper bounds of R6 hold by construction and CNT + 1 never wraps. -/
def Obligations.CounterWidthIsLeast : Prop :=
  ∀ p : Params, 1 ≤ p.maxCycles →
    (∀ w : Nat, p.cntW ≤ w ↔
      p.maxCycles + 2 ≤ 2 ^ w ∧ p.beginWaitTicks + 1 ≤ 2 ^ w ∧ p.startHoldATicks + 1 ≤ 2 ^ w ∧
      p.startHoldBTicks + 1 ≤ 2 ^ w ∧ p.releaseTicks + 1 ≤ 2 ^ w) ∧
    p.cntW = Nat.clog 2 (max (p.maxCycles + 2) (max (p.beginWaitTicks + 1)
      (max (p.startHoldATicks + 1) (max (p.startHoldBTicks + 1) (p.releaseTicks + 1))))) ∧
    Config.defaults.cntW = 20 ∧
    (p.bitThreshold ≤ p.maxCycles → 1 ≤ p.beginWaitTicks → 1 ≤ p.startHoldATicks → 1 ≤ p.startHoldBTicks →
      1 ≤ p.releaseTicks → p.Legal) ∧
    p.maxCycles + 1 ≤ 2 ^ p.cntW - 1
end

