-- ==== Sys2Proof/Laws/State.lean ====
section
/-! SUPPORT. One lemma per field per named update of the registers and of the state, so that no later proof unfolds a record
update. -/

namespace Sys2Proof.Machine

/-! ### The named updates of the registers -/

@[simp] theorem Regs.setCnt_phase (r : Regs) (p : Params) (n : Nat) : (r.setCnt p n).phase = r.phase := rfl
@[simp] theorem Regs.setCnt_cnt (r : Regs) (p : Params) (n : Nat) : (r.setCnt p n).cnt = n % 2 ^ p.cntW := rfl
@[simp] theorem Regs.setCnt_bitIdx (r : Regs) (p : Params) (n : Nat) : (r.setCnt p n).bitIdx = r.bitIdx := rfl
@[simp] theorem Regs.setCnt_frame (r : Regs) (p : Params) (n : Nat) : (r.setCnt p n).frame = r.frame := rfl
@[simp] theorem Regs.setCnt_dqLow (r : Regs) (p : Params) (n : Nat) : (r.setCnt p n).dqLow = r.dqLow := rfl
@[simp] theorem Regs.setCnt_variant (r : Regs) (p : Params) (n : Nat) : (r.setCnt p n).variant = r.variant := rfl
@[simp] theorem Regs.setCnt_init (r : Regs) (p : Params) (n : Nat) : (r.setCnt p n).init = r.init := rfl
@[simp] theorem Regs.setCnt_valid (r : Regs) (p : Params) (n : Nat) : (r.setCnt p n).valid = r.valid := rfl
@[simp] theorem Regs.setCnt_tneg (r : Regs) (p : Params) (n : Nat) : (r.setCnt p n).tneg = r.tneg := rfl
@[simp] theorem Regs.setCnt_err (r : Regs) (p : Params) (n : Nat) : (r.setCnt p n).err = r.err := rfl
@[simp] theorem Regs.setCnt_ovr (r : Regs) (p : Params) (n : Nat) : (r.setCnt p n).ovr = r.ovr := rfl
@[simp] theorem Regs.setCnt_ill (r : Regs) (p : Params) (n : Nat) : (r.setCnt p n).ill = r.ill := rfl
@[simp] theorem Regs.setCnt_hum (r : Regs) (p : Params) (n : Nat) : (r.setCnt p n).hum = r.hum := rfl
@[simp] theorem Regs.setCnt_temp (r : Regs) (p : Params) (n : Nat) : (r.setCnt p n).temp = r.temp := rfl
@[simp] theorem Regs.setCnt_conv (r : Regs) (p : Params) (n : Nat) : (r.setCnt p n).conv = r.conv := rfl

@[simp] theorem Regs.pinLow_phase (r : Regs) : (r.pinLow).phase = r.phase := rfl
@[simp] theorem Regs.pinLow_cnt (r : Regs) : (r.pinLow).cnt = r.cnt := rfl
@[simp] theorem Regs.pinLow_bitIdx (r : Regs) : (r.pinLow).bitIdx = r.bitIdx := rfl
@[simp] theorem Regs.pinLow_frame (r : Regs) : (r.pinLow).frame = r.frame := rfl
@[simp] theorem Regs.pinLow_dqLow (r : Regs) : (r.pinLow).dqLow = true := rfl
@[simp] theorem Regs.pinLow_variant (r : Regs) : (r.pinLow).variant = r.variant := rfl
@[simp] theorem Regs.pinLow_init (r : Regs) : (r.pinLow).init = r.init := rfl
@[simp] theorem Regs.pinLow_valid (r : Regs) : (r.pinLow).valid = r.valid := rfl
@[simp] theorem Regs.pinLow_tneg (r : Regs) : (r.pinLow).tneg = r.tneg := rfl
@[simp] theorem Regs.pinLow_err (r : Regs) : (r.pinLow).err = r.err := rfl
@[simp] theorem Regs.pinLow_ovr (r : Regs) : (r.pinLow).ovr = r.ovr := rfl
@[simp] theorem Regs.pinLow_ill (r : Regs) : (r.pinLow).ill = r.ill := rfl
@[simp] theorem Regs.pinLow_hum (r : Regs) : (r.pinLow).hum = r.hum := rfl
@[simp] theorem Regs.pinLow_temp (r : Regs) : (r.pinLow).temp = r.temp := rfl
@[simp] theorem Regs.pinLow_conv (r : Regs) : (r.pinLow).conv = r.conv := rfl

@[simp] theorem Regs.pinHigh_phase (r : Regs) : (r.pinHigh).phase = r.phase := rfl
@[simp] theorem Regs.pinHigh_cnt (r : Regs) : (r.pinHigh).cnt = r.cnt := rfl
@[simp] theorem Regs.pinHigh_bitIdx (r : Regs) : (r.pinHigh).bitIdx = r.bitIdx := rfl
@[simp] theorem Regs.pinHigh_frame (r : Regs) : (r.pinHigh).frame = r.frame := rfl
@[simp] theorem Regs.pinHigh_dqLow (r : Regs) : (r.pinHigh).dqLow = false := rfl
@[simp] theorem Regs.pinHigh_variant (r : Regs) : (r.pinHigh).variant = r.variant := rfl
@[simp] theorem Regs.pinHigh_init (r : Regs) : (r.pinHigh).init = r.init := rfl
@[simp] theorem Regs.pinHigh_valid (r : Regs) : (r.pinHigh).valid = r.valid := rfl
@[simp] theorem Regs.pinHigh_tneg (r : Regs) : (r.pinHigh).tneg = r.tneg := rfl
@[simp] theorem Regs.pinHigh_err (r : Regs) : (r.pinHigh).err = r.err := rfl
@[simp] theorem Regs.pinHigh_ovr (r : Regs) : (r.pinHigh).ovr = r.ovr := rfl
@[simp] theorem Regs.pinHigh_ill (r : Regs) : (r.pinHigh).ill = r.ill := rfl
@[simp] theorem Regs.pinHigh_hum (r : Regs) : (r.pinHigh).hum = r.hum := rfl
@[simp] theorem Regs.pinHigh_temp (r : Regs) : (r.pinHigh).temp = r.temp := rfl
@[simp] theorem Regs.pinHigh_conv (r : Regs) : (r.pinHigh).conv = r.conv := rfl

@[simp] theorem Regs.clearResults_phase (r : Regs) : (r.clearResults).phase = r.phase := rfl
@[simp] theorem Regs.clearResults_cnt (r : Regs) : (r.clearResults).cnt = r.cnt := rfl
@[simp] theorem Regs.clearResults_bitIdx (r : Regs) : (r.clearResults).bitIdx = r.bitIdx := rfl
@[simp] theorem Regs.clearResults_frame (r : Regs) : (r.clearResults).frame = r.frame := rfl
@[simp] theorem Regs.clearResults_dqLow (r : Regs) : (r.clearResults).dqLow = r.dqLow := rfl
@[simp] theorem Regs.clearResults_variant (r : Regs) : (r.clearResults).variant = r.variant := rfl
@[simp] theorem Regs.clearResults_init (r : Regs) : (r.clearResults).init = r.init := rfl
@[simp] theorem Regs.clearResults_valid (r : Regs) : (r.clearResults).valid = false := rfl
@[simp] theorem Regs.clearResults_tneg (r : Regs) : (r.clearResults).tneg = false := rfl
@[simp] theorem Regs.clearResults_err (r : Regs) : (r.clearResults).err = r.err := rfl
@[simp] theorem Regs.clearResults_ovr (r : Regs) : (r.clearResults).ovr = r.ovr := rfl
@[simp] theorem Regs.clearResults_ill (r : Regs) : (r.clearResults).ill = r.ill := rfl
@[simp] theorem Regs.clearResults_hum (r : Regs) : (r.clearResults).hum = 0 := rfl
@[simp] theorem Regs.clearResults_temp (r : Regs) : (r.clearResults).temp = 0 := rfl
@[simp] theorem Regs.clearResults_conv (r : Regs) : (r.clearResults).conv = r.conv := rfl

@[simp] theorem Regs.cleanup_phase (r : Regs) : (r.cleanup).phase = .idle := rfl
@[simp] theorem Regs.cleanup_cnt (r : Regs) : (r.cleanup).cnt = 0 := rfl
@[simp] theorem Regs.cleanup_bitIdx (r : Regs) : (r.cleanup).bitIdx = 0 := rfl
@[simp] theorem Regs.cleanup_frame (r : Regs) : (r.cleanup).frame = 0 := rfl
@[simp] theorem Regs.cleanup_dqLow (r : Regs) : (r.cleanup).dqLow = false := rfl
@[simp] theorem Regs.cleanup_variant (r : Regs) : (r.cleanup).variant = r.variant := rfl
@[simp] theorem Regs.cleanup_init (r : Regs) : (r.cleanup).init = r.init := rfl
@[simp] theorem Regs.cleanup_valid (r : Regs) : (r.cleanup).valid = false := rfl
@[simp] theorem Regs.cleanup_tneg (r : Regs) : (r.cleanup).tneg = false := rfl
@[simp] theorem Regs.cleanup_err (r : Regs) : (r.cleanup).err = r.err := rfl
@[simp] theorem Regs.cleanup_ovr (r : Regs) : (r.cleanup).ovr = r.ovr := rfl
@[simp] theorem Regs.cleanup_ill (r : Regs) : (r.cleanup).ill = r.ill := rfl
@[simp] theorem Regs.cleanup_hum (r : Regs) : (r.cleanup).hum = 0 := rfl
@[simp] theorem Regs.cleanup_temp (r : Regs) : (r.cleanup).temp = 0 := rfl
@[simp] theorem Regs.cleanup_conv (r : Regs) : (r.cleanup).conv = r.conv := rfl

@[simp] theorem Regs.fail_phase (r : Regs) (e : ErrCode) : (r.fail e).phase = .idle := rfl
@[simp] theorem Regs.fail_cnt (r : Regs) (e : ErrCode) : (r.fail e).cnt = 0 := rfl
@[simp] theorem Regs.fail_bitIdx (r : Regs) (e : ErrCode) : (r.fail e).bitIdx = 0 := rfl
@[simp] theorem Regs.fail_frame (r : Regs) (e : ErrCode) : (r.fail e).frame = 0 := rfl
@[simp] theorem Regs.fail_dqLow (r : Regs) (e : ErrCode) : (r.fail e).dqLow = false := rfl
@[simp] theorem Regs.fail_variant (r : Regs) (e : ErrCode) : (r.fail e).variant = r.variant := rfl
@[simp] theorem Regs.fail_init (r : Regs) (e : ErrCode) : (r.fail e).init = r.init := rfl
@[simp] theorem Regs.fail_valid (r : Regs) (e : ErrCode) : (r.fail e).valid = false := rfl
@[simp] theorem Regs.fail_tneg (r : Regs) (e : ErrCode) : (r.fail e).tneg = false := rfl
@[simp] theorem Regs.fail_err (r : Regs) (e : ErrCode) : (r.fail e).err = e := rfl
@[simp] theorem Regs.fail_ovr (r : Regs) (e : ErrCode) : (r.fail e).ovr = r.ovr := rfl
@[simp] theorem Regs.fail_ill (r : Regs) (e : ErrCode) : (r.fail e).ill = r.ill := rfl
@[simp] theorem Regs.fail_hum (r : Regs) (e : ErrCode) : (r.fail e).hum = 0 := rfl
@[simp] theorem Regs.fail_temp (r : Regs) (e : ErrCode) : (r.fail e).temp = 0 := rfl
@[simp] theorem Regs.fail_conv (r : Regs) (e : ErrCode) : (r.fail e).conv = r.conv := rfl

@[simp] theorem Regs.enter_phase (r : Regs) (ph : Phase) (n : Nat) : (r.enter ph n).phase = ph := rfl
@[simp] theorem Regs.enter_cnt (r : Regs) (ph : Phase) (n : Nat) : (r.enter ph n).cnt = n := rfl
@[simp] theorem Regs.enter_bitIdx (r : Regs) (ph : Phase) (n : Nat) : (r.enter ph n).bitIdx = r.bitIdx := rfl
@[simp] theorem Regs.enter_frame (r : Regs) (ph : Phase) (n : Nat) : (r.enter ph n).frame = r.frame := rfl
@[simp] theorem Regs.enter_dqLow (r : Regs) (ph : Phase) (n : Nat) : (r.enter ph n).dqLow = r.dqLow := rfl
@[simp] theorem Regs.enter_variant (r : Regs) (ph : Phase) (n : Nat) : (r.enter ph n).variant = r.variant := rfl
@[simp] theorem Regs.enter_init (r : Regs) (ph : Phase) (n : Nat) : (r.enter ph n).init = r.init := rfl
@[simp] theorem Regs.enter_valid (r : Regs) (ph : Phase) (n : Nat) : (r.enter ph n).valid = r.valid := rfl
@[simp] theorem Regs.enter_tneg (r : Regs) (ph : Phase) (n : Nat) : (r.enter ph n).tneg = r.tneg := rfl
@[simp] theorem Regs.enter_err (r : Regs) (ph : Phase) (n : Nat) : (r.enter ph n).err = r.err := rfl
@[simp] theorem Regs.enter_ovr (r : Regs) (ph : Phase) (n : Nat) : (r.enter ph n).ovr = r.ovr := rfl
@[simp] theorem Regs.enter_ill (r : Regs) (ph : Phase) (n : Nat) : (r.enter ph n).ill = r.ill := rfl
@[simp] theorem Regs.enter_hum (r : Regs) (ph : Phase) (n : Nat) : (r.enter ph n).hum = r.hum := rfl
@[simp] theorem Regs.enter_temp (r : Regs) (ph : Phase) (n : Nat) : (r.enter ph n).temp = r.temp := rfl
@[simp] theorem Regs.enter_conv (r : Regs) (ph : Phase) (n : Nat) : (r.enter ph n).conv = r.conv := rfl

@[simp] theorem Regs.shiftIn_phase (r : Regs) (b : Bool) : (r.shiftIn b).phase = r.phase := rfl
@[simp] theorem Regs.shiftIn_cnt (r : Regs) (b : Bool) : (r.shiftIn b).cnt = r.cnt := rfl
@[simp] theorem Regs.shiftIn_bitIdx (r : Regs) (b : Bool) : (r.shiftIn b).bitIdx = r.bitIdx + 1 := rfl
@[simp] theorem Regs.shiftIn_frame (r : Regs) (b : Bool) : (r.shiftIn b).frame = (r.frame.extractLsb' 0 39 ++ BitVec.ofBool b : BitVec 40) := rfl
@[simp] theorem Regs.shiftIn_dqLow (r : Regs) (b : Bool) : (r.shiftIn b).dqLow = r.dqLow := rfl
@[simp] theorem Regs.shiftIn_variant (r : Regs) (b : Bool) : (r.shiftIn b).variant = r.variant := rfl
@[simp] theorem Regs.shiftIn_init (r : Regs) (b : Bool) : (r.shiftIn b).init = r.init := rfl
@[simp] theorem Regs.shiftIn_valid (r : Regs) (b : Bool) : (r.shiftIn b).valid = r.valid := rfl
@[simp] theorem Regs.shiftIn_tneg (r : Regs) (b : Bool) : (r.shiftIn b).tneg = r.tneg := rfl
@[simp] theorem Regs.shiftIn_err (r : Regs) (b : Bool) : (r.shiftIn b).err = r.err := rfl
@[simp] theorem Regs.shiftIn_ovr (r : Regs) (b : Bool) : (r.shiftIn b).ovr = r.ovr := rfl
@[simp] theorem Regs.shiftIn_ill (r : Regs) (b : Bool) : (r.shiftIn b).ill = r.ill := rfl
@[simp] theorem Regs.shiftIn_hum (r : Regs) (b : Bool) : (r.shiftIn b).hum = r.hum := rfl
@[simp] theorem Regs.shiftIn_temp (r : Regs) (b : Bool) : (r.shiftIn b).temp = r.temp := rfl
@[simp] theorem Regs.shiftIn_conv (r : Regs) (b : Bool) : (r.shiftIn b).conv = r.conv := rfl

@[simp] theorem Regs.flagOverrun_phase (r : Regs) : (r.flagOverrun).phase = r.phase := rfl
@[simp] theorem Regs.flagOverrun_cnt (r : Regs) : (r.flagOverrun).cnt = r.cnt := rfl
@[simp] theorem Regs.flagOverrun_bitIdx (r : Regs) : (r.flagOverrun).bitIdx = r.bitIdx := rfl
@[simp] theorem Regs.flagOverrun_frame (r : Regs) : (r.flagOverrun).frame = r.frame := rfl
@[simp] theorem Regs.flagOverrun_dqLow (r : Regs) : (r.flagOverrun).dqLow = r.dqLow := rfl
@[simp] theorem Regs.flagOverrun_variant (r : Regs) : (r.flagOverrun).variant = r.variant := rfl
@[simp] theorem Regs.flagOverrun_init (r : Regs) : (r.flagOverrun).init = r.init := rfl
@[simp] theorem Regs.flagOverrun_valid (r : Regs) : (r.flagOverrun).valid = r.valid := rfl
@[simp] theorem Regs.flagOverrun_tneg (r : Regs) : (r.flagOverrun).tneg = r.tneg := rfl
@[simp] theorem Regs.flagOverrun_err (r : Regs) : (r.flagOverrun).err = r.err := rfl
@[simp] theorem Regs.flagOverrun_ovr (r : Regs) : (r.flagOverrun).ovr = true := rfl
@[simp] theorem Regs.flagOverrun_ill (r : Regs) : (r.flagOverrun).ill = r.ill := rfl
@[simp] theorem Regs.flagOverrun_hum (r : Regs) : (r.flagOverrun).hum = r.hum := rfl
@[simp] theorem Regs.flagOverrun_temp (r : Regs) : (r.flagOverrun).temp = r.temp := rfl
@[simp] theorem Regs.flagOverrun_conv (r : Regs) : (r.flagOverrun).conv = r.conv := rfl

@[simp] theorem Regs.flagIllegal_phase (r : Regs) : (r.flagIllegal).phase = r.phase := rfl
@[simp] theorem Regs.flagIllegal_cnt (r : Regs) : (r.flagIllegal).cnt = r.cnt := rfl
@[simp] theorem Regs.flagIllegal_bitIdx (r : Regs) : (r.flagIllegal).bitIdx = r.bitIdx := rfl
@[simp] theorem Regs.flagIllegal_frame (r : Regs) : (r.flagIllegal).frame = r.frame := rfl
@[simp] theorem Regs.flagIllegal_dqLow (r : Regs) : (r.flagIllegal).dqLow = r.dqLow := rfl
@[simp] theorem Regs.flagIllegal_variant (r : Regs) : (r.flagIllegal).variant = r.variant := rfl
@[simp] theorem Regs.flagIllegal_init (r : Regs) : (r.flagIllegal).init = r.init := rfl
@[simp] theorem Regs.flagIllegal_valid (r : Regs) : (r.flagIllegal).valid = r.valid := rfl
@[simp] theorem Regs.flagIllegal_tneg (r : Regs) : (r.flagIllegal).tneg = r.tneg := rfl
@[simp] theorem Regs.flagIllegal_err (r : Regs) : (r.flagIllegal).err = r.err := rfl
@[simp] theorem Regs.flagIllegal_ovr (r : Regs) : (r.flagIllegal).ovr = r.ovr := rfl
@[simp] theorem Regs.flagIllegal_ill (r : Regs) : (r.flagIllegal).ill = true := rfl
@[simp] theorem Regs.flagIllegal_hum (r : Regs) : (r.flagIllegal).hum = r.hum := rfl
@[simp] theorem Regs.flagIllegal_temp (r : Regs) : (r.flagIllegal).temp = r.temp := rfl
@[simp] theorem Regs.flagIllegal_conv (r : Regs) : (r.flagIllegal).conv = r.conv := rfl

@[simp] theorem Regs.setConv_phase (r : Regs) (v : Int) : (r.setConv v).phase = r.phase := rfl
@[simp] theorem Regs.setConv_cnt (r : Regs) (v : Int) : (r.setConv v).cnt = r.cnt := rfl
@[simp] theorem Regs.setConv_bitIdx (r : Regs) (v : Int) : (r.setConv v).bitIdx = r.bitIdx := rfl
@[simp] theorem Regs.setConv_frame (r : Regs) (v : Int) : (r.setConv v).frame = r.frame := rfl
@[simp] theorem Regs.setConv_dqLow (r : Regs) (v : Int) : (r.setConv v).dqLow = r.dqLow := rfl
@[simp] theorem Regs.setConv_variant (r : Regs) (v : Int) : (r.setConv v).variant = r.variant := rfl
@[simp] theorem Regs.setConv_init (r : Regs) (v : Int) : (r.setConv v).init = r.init := rfl
@[simp] theorem Regs.setConv_valid (r : Regs) (v : Int) : (r.setConv v).valid = r.valid := rfl
@[simp] theorem Regs.setConv_tneg (r : Regs) (v : Int) : (r.setConv v).tneg = r.tneg := rfl
@[simp] theorem Regs.setConv_err (r : Regs) (v : Int) : (r.setConv v).err = r.err := rfl
@[simp] theorem Regs.setConv_ovr (r : Regs) (v : Int) : (r.setConv v).ovr = r.ovr := rfl
@[simp] theorem Regs.setConv_ill (r : Regs) (v : Int) : (r.setConv v).ill = r.ill := rfl
@[simp] theorem Regs.setConv_hum (r : Regs) (v : Int) : (r.setConv v).hum = r.hum := rfl
@[simp] theorem Regs.setConv_temp (r : Regs) (v : Int) : (r.setConv v).temp = r.temp := rfl
@[simp] theorem Regs.setConv_conv (r : Regs) (v : Int) : (r.setConv v).conv = BitVec.ofInt 32 v := rfl

/-! ### The registers after a reset cycle -/

@[simp] theorem resetRegs_phase (strap : Variant) : (resetRegs strap).phase = .idle := rfl
@[simp] theorem resetRegs_cnt (strap : Variant) : (resetRegs strap).cnt = 0 := rfl
@[simp] theorem resetRegs_bitIdx (strap : Variant) : (resetRegs strap).bitIdx = 0 := rfl
@[simp] theorem resetRegs_frame (strap : Variant) : (resetRegs strap).frame = 0 := rfl
@[simp] theorem resetRegs_dqLow (strap : Variant) : (resetRegs strap).dqLow = false := rfl
@[simp] theorem resetRegs_variant (strap : Variant) : (resetRegs strap).variant = strap := rfl
@[simp] theorem resetRegs_init (strap : Variant) : (resetRegs strap).init = false := rfl
@[simp] theorem resetRegs_valid (strap : Variant) : (resetRegs strap).valid = false := rfl
@[simp] theorem resetRegs_tneg (strap : Variant) : (resetRegs strap).tneg = false := rfl
@[simp] theorem resetRegs_err (strap : Variant) : (resetRegs strap).err = .none := rfl
@[simp] theorem resetRegs_ovr (strap : Variant) : (resetRegs strap).ovr = false := rfl
@[simp] theorem resetRegs_ill (strap : Variant) : (resetRegs strap).ill = false := rfl
@[simp] theorem resetRegs_hum (strap : Variant) : (resetRegs strap).hum = 0 := rfl
@[simp] theorem resetRegs_temp (strap : Variant) : (resetRegs strap).temp = 0 := rfl
@[simp] theorem resetRegs_conv (strap : Variant) : (resetRegs strap).conv = 0 := rfl

/-- The state after reset holds the registers a reset cycle writes. -/
theorem reset_regs : State.reset.regs = resetRegs .modelA := rfl

/-! ### The named updates of the state -/

@[simp] theorem State.withRegs_regs (s : State) (r : Regs) : (s.withRegs r).regs = r := rfl
@[simp] theorem State.withRegs_params (s : State) (r : Regs) : (s.withRegs r).params = s.params := rfl
@[simp] theorem State.withRegs_pending (s : State) (r : Regs) : (s.withRegs r).pending = s.pending := rfl
@[simp] theorem State.withRegs_cycle (s : State) (r : Regs) : (s.withRegs r).cycle = s.cycle := rfl

@[simp] theorem State.withInputs_regs (s : State) (i : Inputs) : (s.withInputs i).regs = s.regs := rfl
@[simp] theorem State.withInputs_params (s : State) (i : Inputs) : (s.withInputs i).params = s.params := rfl
@[simp] theorem State.withInputs_pending (s : State) (i : Inputs) : (s.withInputs i).pending = i :: s.pending.tail := rfl
@[simp] theorem State.withInputs_cycle (s : State) (i : Inputs) : (s.withInputs i).cycle = s.cycle := rfl

@[simp] theorem State.nextCycle_regs (s : State) : (s.nextCycle).regs = s.regs := rfl
@[simp] theorem State.nextCycle_params (s : State) : (s.nextCycle).params = s.params := rfl
@[simp] theorem State.nextCycle_pending (s : State) : (s.nextCycle).pending = s.pending.tail := rfl
@[simp] theorem State.nextCycle_cycle (s : State) : (s.nextCycle).cycle = s.cycle + 1 := rfl

/-! ### The input ports of the current cycle -/

@[simp] theorem State.withInputs_inputs (s : State) (i : Inputs) : (s.withInputs i).inputs = i := rfl
@[simp] theorem State.withRegs_inputs (s : State) (r : Regs) : (s.withRegs r).inputs = s.inputs := rfl
@[simp] theorem State.withInputs_withRegs (s : State) (i : Inputs) (r : Regs) :
    (s.withInputs i).withRegs r = (s.withRegs r).withInputs i := rfl

theorem State.inputs_of_pending {s : State} {i : Inputs} {rest : List Inputs} (h : s.pending = i :: rest) :
    s.inputs = i := by
  simp [State.inputs, h]

end Sys2Proof.Machine
end

