-- ==== Sys2Proof/Laws/Flags.lean ====
section
/-! SUPPORT. The STATUS word bit by bit, the bytes of a frame as numbers, and the shift register. -/

namespace Sys2Proof.Machine

/-- Bit k of STATUS, field by field from the lowest (10_state.md R45). -/
theorem Regs.status_getLsbD (r : Regs) (k : Nat) :
    r.status.getLsbD k =
      if k < 1 then (BitVec.ofBool r.busy).getLsbD k
      else if k < 2 then (BitVec.ofBool r.init).getLsbD (k - 1)
      else if k < 3 then (BitVec.ofBool r.valid).getLsbD (k - 2)
      else if k < 4 then (BitVec.ofBool r.tneg).getLsbD (k - 3)
      else if k < 7 then r.err.code.getLsbD (k - 4)
      else if k < 8 then (variantBit r.variant).getLsbD (k - 7)
      else if k < 9 then (BitVec.ofBool r.ovr).getLsbD (k - 8)
      else if k < 10 then (BitVec.ofBool r.ill).getLsbD (k - 9)
      else if k < 12 then false
      else if k < 16 then r.phase.code.getLsbD (k - 12)
      else if k < 22 then r.bitIdx.getLsbD (k - 16)
      else false := by
  simp only [Regs.status, BitVec.getLsbD_cast, BitVec.getLsbD_append, BitVec.getLsbD_zero]
  repeat' first
    | rfl
    | refine if_congr (by omega) (congrArg _ (by omega)) ?_
    | refine if_congr (by omega) rfl ?_

/-- Byte k of the frame, k = 0..4, as a number (43_validate_decode.md R180). -/
theorem frameByte_toNat (f : Frame) (k : Nat) : (frameByte f k).toNat = f.toNat / 2 ^ (32 - 8 * k) % 256 := by
  simp [frameByte, Nat.shiftRight_eq_div_pow]

/-- Bit 0 of the shifted frame is the new bit, and bit k + 1 is the old bit k (10_state.md R31). -/
theorem shiftIn_getLsbD (f : Frame) (b : Bool) (k : Nat) :
    (f.extractLsb' 0 39 ++ BitVec.ofBool b : BitVec 40).getLsbD k =
      if k = 0 then b else decide (k - 1 < 39) && f.getLsbD (k - 1) := by
  rw [BitVec.getLsbD_append]
  rcases k with _ | k
  · simp
  · simp [BitVec.getLsbD_extractLsb']

end Sys2Proof.Machine
end

