-- ==== Sys2Proof/Laws/Ops.lean ====
section
/-! SUPPORT. One lemma per shared operation: CNT_W and the counter write, the legal ranges, HOLD, the fields of an encoded word, the host's
command word, and what a command does to the registers. -/

namespace Sys2Proof

/-! ### CNT_W (00_scope.md R7) -/

/-- CNT_W bits count to `cntSpan`. -/
theorem Params.cntSpan_le (p : Params) : p.cntSpan ≤ 2 ^ p.cntW := by
  have h : p.cntSpan - 1 < 2 ^ p.cntW := Nat.lt_log2_self
  have : 0 < 2 ^ p.cntW := Nat.two_pow_pos _
  omega

theorem Params.maxCycles_add_two_le (p : Params) : p.maxCycles + 2 ≤ 2 ^ p.cntW :=
  (Nat.le_max_left ..).trans p.cntSpan_le

theorem Params.waits_le (p : Params) :
    p.beginWaitTicks + 1 ≤ 2 ^ p.cntW ∧ p.startHoldATicks + 1 ≤ 2 ^ p.cntW ∧
    p.startHoldBTicks + 1 ≤ 2 ^ p.cntW ∧ p.releaseTicks + 1 ≤ 2 ^ p.cntW := by
  have h := p.cntSpan_le
  simp only [Params.cntSpan, Nat.max_le] at h
  exact ⟨h.2.1, h.2.2.1, h.2.2.2.1, h.2.2.2.2⟩

theorem Params.hold_le (p : Params) (v : Variant) : p.hold v + 1 ≤ 2 ^ p.cntW := by
  cases v
  · exact p.waits_le.2.1
  · exact p.waits_le.2.2.1

theorem Params.Legal.hold_pos {p : Params} (h : p.Legal) (v : Variant) : 1 ≤ p.hold v := by
  cases v
  · exact h.2.2.2.1.1
  · exact h.2.2.2.2.1.1

/-! ### The fields of a word (30_encoding.md R80) -/

theorem argOperand_fits (w : Word) : OperandFits (argOperand w) := by
  unfold argOperand OperandFits
  rw [BitVec.toInt_signExtend_of_le (by omega)]
  have h1 := BitVec.le_toInt (argField w)
  have h2 := BitVec.toInt_lt (x := argField w)
  omega

/-- Every command the decoder reads is well formed. -/
theorem decode_wellFormed {w : Word} {i : Instr} (h : decode w = .command i) : i.wellFormed = true := by
  unfold decode at h
  split at h
  · cases h
  · split at h <;> cases h <;> simp only [Instr.wellFormed, decide_eq_true_eq]
    · exact argOperand_fits w
    · exact argOperand_fits w

end Sys2Proof

namespace Sys2Proof.Machine

/-- A counter value that fits is written as it is. -/
theorem Regs.setCnt_of_lt {p : Params} {n : Nat} (h : n < 2 ^ p.cntW) (r : Regs) : r.setCnt p n = { r with cnt := n } := by
  simp [Regs.setCnt, Nat.mod_eq_of_lt h]

theorem commandWord_eq_some {i : Inputs} {w : Word} :
    commandWord i = some w ↔ i.busWr = true ∧ i.busAddr = 0 ∧ i.busWdata = w := by
  unfold commandWord
  split <;> simp_all

theorem commandWord_eq_none {i : Inputs} : commandWord i = none ↔ ¬(i.busWr = true ∧ i.busAddr = 0) := by
  unfold commandWord
  split <;> simp_all

/-! ### What a command does to the registers -/

/-- The registers a command leaves; `ioErr` is the pad's answer in its cycle. -/
def commandRegs (i : Instr) (ioErr : Bool) (r : Regs) : Regs :=
  match i with
  | .nop => r
  | .begin => if r.phase = .idle then acceptBegin ioErr r else r.flagOverrun
  | .read => if r.phase = .idle then acceptRead ioErr r else r.flagOverrun
  | .c2f c => r.setConv (celsiusToFahrenheit c)
  | .f2c f => r.setConv (fahrenheitToCelsius f)

/-- Every command answers a next state, which differs in the registers alone. -/
theorem exec_eq (i : Instr) (s : State) : exec i s = .next (s.withRegs (commandRegs i s.inputs.ioErr s.regs)) := by
  cases i <;> rfl

/-- The registers the host's write of a cycle leaves (40_host_commands.md R101). -/
def hostRegs (i : Inputs) (r : Regs) : Regs :=
  match commandWord i with
  | none => r
  | some w =>
    match decode w with
    | .command c => commandRegs c i.ioErr r
    | .illegal _ => r.flagIllegal

theorem hostCycle_eq (s : State) : hostCycle s = .next (s.withRegs (hostRegs s.inputs s.regs)) := by
  unfold hostCycle hostRegs
  cases commandWord s.inputs with
  | none => rfl
  | some w =>
    dsimp only
    cases decode w with
    | command i => exact exec_eq i s
    | illegal why => rfl

/-- While a command runs, a command writes OVR and CONV alone. -/
theorem commandRegs_busy {r : Regs} (h : r.phase ≠ .idle) (i : Instr) (ioErr : Bool) :
    commandRegs i ioErr r =
      { r with ovr := (commandRegs i ioErr r).ovr, conv := (commandRegs i ioErr r).conv } := by
  cases i <;> simp [commandRegs, h, Regs.flagOverrun, Regs.setConv]

/-- While a command runs, the host's write touches OVR, ILL and CONV alone (20_memory.md R74). -/
theorem hostRegs_busy {r : Regs} (h : r.phase ≠ .idle) (i : Inputs) :
    hostRegs i r = { r with ovr := (hostRegs i r).ovr, ill := (hostRegs i r).ill, conv := (hostRegs i r).conv } := by
  unfold hostRegs
  split
  · rfl
  · split
    · rw [commandRegs_busy h]
    · rfl

/-- Without a write to CMD the host does nothing. -/
theorem hostRegs_of_quiet {i : Inputs} (h : i.busWr = false) (r : Regs) : hostRegs i r = r := by
  have : commandWord i = none := by simp [commandWord, h]
  simp [hostRegs, this]

/-- No command writes VARIANT, BITIDX or FRAME. -/
theorem commandRegs_frame (i : Instr) (ioErr : Bool) (r : Regs) :
    (commandRegs i ioErr r).variant = r.variant ∧ (commandRegs i ioErr r).bitIdx = r.bitIdx ∧
    (commandRegs i ioErr r).frame = r.frame ∧ (commandRegs i ioErr r).ill = r.ill := by
  by_cases h : r.phase = .idle <;> cases ioErr <;> cases i <;>
    simp [commandRegs, h, acceptBegin, acceptRead]

/-- The sequencer of a phase does not read, and does not write, OVR, ILL and CONV (20_memory.md R74). -/
theorem sequencerCycle_host (p : Params) (i : Inputs) (ph : Phase) (r : Regs) (ovr ill : Bool) (conv : Word) :
    sequencerCycle p i ph { r with ovr := ovr, ill := ill, conv := conv } =
      { sequencerCycle p i ph r with ovr := ovr, ill := ill, conv := conv } := by
  cases ph <;>
    simp only [sequencerCycle, beginWaitCycle, startLowCycle, startRelCycle, measureCycle, dataPulseEnd, validateCycle,
      Regs.setCnt, Regs.enter, Regs.fail, Regs.cleanup, Regs.pinHigh, Regs.shiftIn] <;>
    repeat' first | rfl | split

end Sys2Proof.Machine
end

