-- ==== Sys2Proof/Laws/PerInstr.lean ====
section
/-! SUPPORT. Statements made per command: the family OpcodeMatch, the low half of an encoded command is its match in the opcode table
(30_encoding.md R89). -/

namespace Sys2Proof

/-- The match of a command under the mask 0x0000FFFF (30_encoding.md R89). -/
def opcodeMatch : Instr → BitVec 16
  | .nop => 0x0000
  | .begin => 0x0001
  | .read => 0x0002
  | .c2f _ => 0x0003
  | .f2c _ => 0x0004

/-- The low half of the encoded command is its match. -/
def Laws.OpcodeMatch.Statement (i : Instr) : Prop := (encode i).extractLsb' 0 16 = opcodeMatch i

theorem Laws.OpcodeMatch.nop : Laws.OpcodeMatch.Statement .nop := by
  simp [Laws.OpcodeMatch.Statement, encode, opcodeMatch]

theorem Laws.OpcodeMatch.begin : Laws.OpcodeMatch.Statement .begin := by
  simp [Laws.OpcodeMatch.Statement, encode, opcodeMatch]

theorem Laws.OpcodeMatch.read : Laws.OpcodeMatch.Statement .read := by
  simp [Laws.OpcodeMatch.Statement, encode, opcodeMatch]

theorem Laws.OpcodeMatch.c2f (c : Int) : Laws.OpcodeMatch.Statement (.c2f c) := by
  simp only [Laws.OpcodeMatch.Statement, encode, opcodeMatch]
  exact BitVec.extractLsb'_append_eq_of_add_le (by omega)

theorem Laws.OpcodeMatch.f2c (f : Int) : Laws.OpcodeMatch.Statement (.f2c f) := by
  simp only [Laws.OpcodeMatch.Statement, encode, opcodeMatch]
  exact BitVec.extractLsb'_append_eq_of_add_le (by omega)

end Sys2Proof
end

