-- ==== Sys2Proof/Laws/Step.lean ====
section
/-! SUPPORT. The step once and for all: what a cycle does to the registers as one function of the parameters, the ports and the
registers, the step as that function, and a run over a given schedule as its fold. -/

namespace Sys2Proof.Machine

/-- The registers after a cycle: the reset, or the host's write and then the sequencer of the phase before the edge. -/
def cycleRegs (p : Params) (i : Inputs) (r : Regs) : Regs :=
  if i.rst then resetRegs i.variant else sequencerCycle p i r.phase (hostRegs i r)

/-- The step where it answers a next state. -/
theorem step_eq {s : State} (hl : s.params.Legal) (hu : s.inputs.rst = true ∨ s.regs.phase.used = true) :
    step s = .next (afterCycle s (cycleRegs s.params s.inputs s.regs)) := by
  unfold step cycle cycleRegs
  rw [if_pos hl]
  cases hr : s.inputs.rst
  · have : s.regs.phase.used = true := by simpa [hr] using hu
    simp only [this, if_true, hostCycle_eq]
    rfl
  · rfl

/-- The step where it stops on an unused phase. -/
theorem step_unused {s : State} (hl : s.params.Legal) (hr : s.inputs.rst = false) (hu : s.regs.phase.used = false) :
    step s = .fault .unusedPhase := by
  rw [step, cycle, if_pos hl]
  simp [hr, hu]

/-- The step where it refuses the parameters. -/
theorem step_illegal {s : State} (hl : ¬s.params.Legal) : step s = .refused .parametersOutOfRange := by
  rw [step, cycle, if_neg hl]

/-- What a step can do: it is a cycle with legal parameters, from a reset or a used phase. -/
theorem step_cases {s t : State} (h : step s = .next t) :
    s.params.Legal ∧ (s.inputs.rst = true ∨ s.regs.phase.used = true) ∧
      t = afterCycle s (cycleRegs s.params s.inputs s.regs) := by
  by_cases hl : s.params.Legal
  · by_cases hu : s.inputs.rst = true ∨ s.regs.phase.used = true
    · rw [step_eq hl hu] at h
      cases h
      exact ⟨hl, hu, rfl⟩
    · simp only [not_or, Bool.not_eq_true] at hu
      rw [step_unused hl hu.1 hu.2] at h
      cases h
  · rw [step_illegal hl] at h
    cases h

/-- In a cycle without reset and bus write the sequencer acts alone. -/
theorem step_quiet {s : State} (hl : s.params.Legal) (hu : s.regs.phase.used = true) (hq : QuietBus s.inputs) :
    step s = .next (afterCycle s (sequencerCycle s.params s.inputs s.regs.phase s.regs)) := by
  rw [step_eq hl (Or.inr hu), cycleRegs, hq.1, hostRegs_of_quiet hq.2]
  rfl

/-- Two choices of the current cycle's ports that do the same to the registers give the same step. -/
theorem step_withInputs_congr {s : State} {i j : Inputs} (hr : i.rst = j.rst)
    (h : cycleRegs s.params i s.regs = cycleRegs s.params j s.regs) : step (s.withInputs i) = step (s.withInputs j) := by
  by_cases hl : s.params.Legal
  · by_cases hu : i.rst = true ∨ s.regs.phase.used = true
    · rw [step_eq (s := s.withInputs i) hl hu, step_eq (s := s.withInputs j) hl (hr ▸ hu)]
      simp [afterCycle, State.withInputs, State.inputs, h]
    · simp only [not_or, Bool.not_eq_true] at hu
      rw [step_unused (s := s.withInputs i) hl hu.1 hu.2, step_unused (s := s.withInputs j) hl (hr ▸ hu.1) hu.2]
  · rw [step_illegal (s := s.withInputs i) hl, step_illegal (s := s.withInputs j) hl]

/-- A phase a rule names leads to a phase a rule names (10_state.md R27). -/
theorem cycleRegs_used {p : Params} {i : Inputs} {r : Regs} (h : r.phase.used = true) :
    (cycleRegs p i r).phase.used = true := by
  unfold cycleRegs
  split
  · rfl
  · by_cases hi : r.phase = .idle
    · rw [hi]
      simp only [sequencerCycle, hostRegs]
      split
      · exact h
      · split
        · rename_i c _
          cases c <;> simp only [commandRegs, hi, if_true, acceptBegin, acceptRead] <;> (try split) <;>
            simp [hi, Phase.used]
        · exact h
    · rw [hostRegs_busy hi, sequencerCycle_host]
      cases hp : r.phase <;>
        simp only [sequencerCycle, beginWaitCycle, startLowCycle, startRelCycle, measureCycle, dataPulseEnd,
          validateCycle] <;>
        (repeat' split) <;> simp_all [Phase.used]

@[simp] theorem afterCycle_regs (s : State) (r : Regs) : (afterCycle s r).regs = r := rfl
@[simp] theorem afterCycle_params (s : State) (r : Regs) : (afterCycle s r).params = s.params := rfl
@[simp] theorem afterCycle_pending (s : State) (r : Regs) : (afterCycle s r).pending = s.pending.tail := rfl

/-- The registers after the cycles of a schedule. -/
def runRegs (p : Params) (ins : List Inputs) (r : Regs) : Regs := ins.foldl (fun r i => cycleRegs p i r) r

@[simp] theorem runRegs_nil (p : Params) (r : Regs) : runRegs p [] r = r := rfl
@[simp] theorem runRegs_cons (p : Params) (i : Inputs) (ins : List Inputs) (r : Regs) :
    runRegs p (i :: ins) r = runRegs p ins (cycleRegs p i r) := rfl
theorem runRegs_append (p : Params) (ins ins' : List Inputs) (r : Regs) :
    runRegs p (ins ++ ins') r = runRegs p ins' (runRegs p ins r) := by simp [runRegs]

/-- A run over a given schedule never stops, and is the fold of the cycles. -/
theorem run_schedule (ins rest : List Inputs) (s : State) (hl : s.params.Legal) (hu : s.regs.phase.used = true)
    (hp : s.pending = ins ++ rest) :
    Host.Core.run core ins.length s =
      .next { regs := runRegs s.params ins s.regs, params := s.params, pending := rest, cycle := s.cycle + ins.length } := by
  induction ins generalizing s with
  | nil => cases s; simp_all [Host.Core.run]
  | cons i ins ih =>
    have hi : s.inputs = i := State.inputs_of_pending hp
    have hs : core.step s = .next (afterCycle s (cycleRegs s.params i s.regs)) := by
      have := step_eq hl (Or.inr hu)
      rw [hi] at this
      exact this
    simp only [List.length_cons, Host.Core.run, hs]
    rw [ih (afterCycle s (cycleRegs s.params i s.regs)) hl (cycleRegs_used hu) (by simp [hp])]
    simp [afterCycle, Nat.add_comm, Nat.add_left_comm]

end Sys2Proof.Machine
end

