-- ==== Sys2Proof/Tests/Slice0.lean ====
section
/-! SUPPORT. The model's own tests. Expected results are the spec's: the words and vectors of 95_test_vectors.md, or a hand
calculation from the rule cited. After them one witness per statement with hypotheses: a concrete state, ports and operands
that meet all of them together, one for each clause. -/

namespace Sys2Proof.Tests

open Sys2Proof Sys2Proof.Machine

/-! ### Well-formedness -/

theorem test_wellFormed_c2f_above : (Instr.c2f 32768).wellFormed = false := by decide
theorem test_wellFormed_c2f_below : (Instr.c2f (-32769)).wellFormed = false := by decide
theorem test_wellFormed_f2c_above : (Instr.f2c 32768).wellFormed = false := by decide
theorem test_wellFormed_f2c_below : (Instr.f2c (-32769)).wellFormed = false := by decide
theorem test_wellFormed_ends : (Instr.c2f 32767).wellFormed = true ∧ (Instr.c2f (-32768)).wellFormed = true ∧
    (Instr.f2c 32767).wellFormed = true ∧ (Instr.f2c (-32768)).wellFormed = true := by decide
theorem test_wellFormed_plain : Instr.nop.wellFormed = true ∧ Instr.begin.wellFormed = true ∧ Instr.read.wellFormed = true := by
  decide

/-! ### Decoding: words written out from 30_encoding.md R80, R81 and 95_test_vectors.md section 2.1 -/

/-- ARG 0x1234 is ignored: 0001001000110100 / 0000000000000 / 000. -/
theorem test_decode_nop : decode 0b00010010001101000000000000000000#32 = .command .nop := by decide
/-- ARG 0xABCD is ignored: 1010101111001101 / 0000000000000 / 001. -/
theorem test_decode_begin : decode 0b10101011110011010000000000000001#32 = .command .begin := by decide
/-- 0000000000000000 / 0000000000000 / 010. -/
theorem test_decode_read : decode 0b00000000000000000000000000000010#32 = .command .read := by decide
/-- −400 = 0xFE70: 1111111001110000 / 0000000000000 / 011. -/
theorem test_decode_c2f : decode 0b11111110011100000000000000000011#32 = .command (.c2f (-400)) := by decide
/-- 770 = 0x0302: 0000001100000010 / 0000000000000 / 100. -/
theorem test_decode_f2c : decode 0b00000011000000100000000000000100#32 = .command (.f2c 770) := by decide
theorem test_decode_minus_one : decode 0xFFFF0003#32 = .command (.c2f (-1)) := by decide
theorem test_decode_most_negative : decode 0x80000004#32 = .command (.f2c (-32768)) := by decide
theorem test_decode_reserved_opcodes : decode 0x00000005#32 = .illegal .reservedOpcode ∧
    decode 0x00000006#32 = .illegal .reservedOpcode ∧ decode 0x00000007#32 = .illegal .reservedOpcode := by decide
theorem test_decode_reserved_field : decode 0x00000008#32 = .illegal .reservedField ∧
    decode 0x00008001#32 = .illegal .reservedField ∧ decode 0xFFFFFFFF#32 = .illegal .reservedField := by decide
theorem test_encode : encode (.c2f (-1)) = 0xFFFF0003#32 ∧ encode (.f2c 32767) = 0x7FFF0004#32 ∧
    encode (.c2f (-32768)) = 0x80000003#32 := by decide
theorem test_table_word_is_32_bits : decodeTableWord 32 0x00FA0003 = some (.c2f 250) ∧ decodeTableWord 16 0x00FA0003 = some (.c2f 0) := by
  decide

/-! ### States for tests -/

/-- The parameters of vectors V-W1, V-W2 and V-M1: short waits, MAX_CYCLES = 3 and BIT_THRESHOLD = 1. -/
def short : Params :=
  { Config.defaults with
    maxCycles := 3, bitThreshold := 1, beginWaitTicks := 3, startHoldATicks := 2, startHoldBTicks := 2, releaseTicks := 2 }

/-- A tick cycle with the line low, a working pad and a silent host. -/
def ticking : Inputs where
  rst := false
  variant := .modelA
  tick := true
  dqIn := false
  ioErr := false
  busWr := false
  busAddr := 0
  busWdata := 0

/-- A tick cycle in which the host writes `w` to CMD. -/
def writing (w : Word) : Inputs := { ticking with busWr := true, busWdata := w }

/-- The registers "in IDLE, INIT = 1", of the strap's variant (95_test_vectors.md). -/
def ready (v : Variant) : Regs := { resetRegs v with init := true }

/-- The registers in the phase `ph` with CNT at n, of Model B with INIT = 1, as in V-W2 and V-M1. -/
def busyIn (ph : Phase) (n : Nat) : Regs := { ready .modelB with phase := ph, cnt := n }

/-- A state with short parameters. -/
def stateAt (r : Regs) (ins : List Inputs) : State := { regs := r, params := short, pending := ins, cycle := 0 }

/-- VALIDATE with the frame `f` in FRAME. -/
def validating (v : Variant) (f : Frame) : Regs := { ready v with phase := .validate, bitIdx := 40, frame := f }

/-- The reads of STATUS, HUM, TEMP and CONV in a state are these. -/
def reads (status hum temp conv : Word) (t : State) : Bool :=
  busRead 1 t == status && busRead 2 t == hum && busRead 3 t == temp && busRead 4 t == conv

/-! ### One step of each command (95_test_vectors.md sections 2.3 and 2.7) -/

theorem test_nop_writes_nothing : step (stateAt (busyIn .ackHigh 2) [{ writing 0x12340000#32 with tick := false }]) =
    .next { stateAt (busyIn .ackHigh 2) [] with cycle := 1 } := rfl
theorem test_begin_accepted :
    nextSatisfies (reads 0x00001001#32 0 0 0) (step (stateAt (resetRegs .modelA) [writing 0x00000001#32])) = true := by decide
theorem test_begin_pad_error : nextSatisfies (reads 0x00000040#32 0 0 0)
    (step (stateAt (ready .modelA) [{ writing 0x00000001#32 with ioErr := true }])) = true := by decide
theorem test_read_clears_the_reading : nextSatisfies (fun t => reads 0x00002003#32 0 0 0 t && dqPullLow t)
    (step (stateAt { ready .modelA with valid := true, hum := 500, temp := 250 } [writing 0x00000002#32])) = true := by decide
theorem test_read_pad_error : nextSatisfies (fun t => reads 0x00000042#32 0 0 0 t && !dqPullLow t)
    (step (stateAt (ready .modelA) [{ writing 0x00000002#32 with ioErr := true }])) = true := by decide
theorem test_c2f_rounds_down : nextSatisfies (fun t => busRead 4 t == 0xFFFFFA3A#32)
    (step (stateAt (ready .modelA) [writing 0xFC190003#32])) = true := by decide
theorem test_c2f_while_busy : nextSatisfies (fun t => busRead 4 t == 318 && t.regs.phase == .beginWait)
    (step (stateAt (busyIn .beginWait 0) [writing 0xFFFF0003#32])) = true := by decide
theorem test_f2c_most_negative : nextSatisfies (fun t => busRead 4 t == 0xFFFFB832#32)
    (step (stateAt (ready .modelA) [writing 0x80000004#32])) = true := by decide
theorem test_f2c_rounds_up : nextSatisfies (fun t => busRead 4 t == 0x0000017A#32)
    (step (stateAt (ready .modelA) [writing 0x03E80004#32])) = true := by decide

/-! ### The bus -/

theorem test_busy_read_sets_overrun : nextSatisfies (reads 0x00001101#32 0 0 0)
    (step (stateAt { resetRegs .modelA with phase := .beginWait } [{ writing 0x00000002#32 with tick := false }])) = true := by decide
theorem test_illegal_word_sets_ill : nextSatisfies (reads 0x00001301#32 0 0 0)
    (step (stateAt { resetRegs .modelA with phase := .beginWait, ovr := true }
      [{ writing 0x00000005#32 with tick := false }])) = true := by decide
theorem test_write_to_hum_is_ignored : nextSatisfies (fun t => busRead 2 t == 0x0000FFFF#32)
    (step (stateAt { ready .modelB with hum := 65535 } [{ writing 0x1234#32 with busAddr := 2 }])) = true := by decide
theorem test_status_in_bit_high : busRead 1 (stateAt { busyIn .bitHigh 1 with bitIdx := 1 } []) = 0x00017083#32 := by decide
theorem test_status_in_validate : busRead 1 (stateAt (validating .modelA 0) []) = 0x00288003#32 := by decide
theorem test_reset_model_b : nextSatisfies (reads 0x00000080#32 0 0 0)
    (step (stateAt { busyIn .startLow 1 with dqLow := true, ovr := true, ill := true, conv := 5 }
      [{ writing 0x00000001#32 with rst := true, variant := .modelB }])) = true := by decide
theorem test_unused_phase_faults : step (stateAt { ready .modelA with phase := .unused 3, dqLow := true } [ticking]) =
    .fault .unusedPhase := rfl

/-! ### The sequencer (95_test_vectors.md sections 2.4 and 2.5) -/

theorem test_begin_wait_ends : nextSatisfies (reads 0x00000082#32 0 0 0) (step (stateAt (busyIn .beginWait 2) [ticking])) = true := by
  decide
theorem test_hold_ends : nextSatisfies (fun t => t.regs.phase == .startRel && t.regs.cnt == 0 && !dqPullLow t)
    (step (stateAt { busyIn .startLow 1 with dqLow := true } [ticking])) = true := by decide
theorem test_hold_pad_error : nextSatisfies (fun t => reads 0x000000C2#32 0 0 0 t && !dqPullLow t)
    (step (stateAt { busyIn .startLow 1 with dqLow := true } [{ ticking with ioErr := true }])) = true := by decide
theorem test_fourth_low_sample_times_out : nextSatisfies (reads 0x00000092#32 0 0 0)
    (step (stateAt (busyIn .ackLow 3) [ticking])) = true := by decide
theorem test_third_low_sample_counts : nextSatisfies (fun t => t.regs.phase == .ackLow && t.regs.cnt == 3)
    (step (stateAt (busyIn .ackLow 2) [ticking])) = true := by decide
theorem test_width_at_threshold_is_zero : nextSatisfies (fun t => t.regs.frame == 0 && busRead 1 t == 0x00016083#32)
    (step (stateAt (busyIn .bitHigh 1) [ticking])) = true := by decide
theorem test_width_above_threshold_is_one : nextSatisfies (fun t => t.regs.frame == 1 && busRead 1 t == 0x00026083#32)
    (step (stateAt { busyIn .bitHigh 2 with bitIdx := 1 } [ticking])) = true := by decide
theorem test_fortieth_bit_enters_validate :
    nextSatisfies (fun t => t.regs.phase == .validate && t.regs.bitIdx == 40 && t.regs.cnt == 0 && t.regs.frame == 0x5#40)
      (step (stateAt { busyIn .bitHigh 3 with bitIdx := 39, frame := 0x2#40 } [ticking])) = true := by decide

/-! ### Validation (95_test_vectors.md sections 1 and 2.6) -/

theorem test_validate_w1 : nextSatisfies (reads 0x00000006#32 0x000001F4#32 0x000000FA#32 0)
    (step (stateAt (validating .modelA 0x320019004B#40) [ticking])) = true := by decide
theorem test_validate_w2 : nextSatisfies (reads 0x0000008E#32 0x0000028C#32 0xFFFFFFCE#32 0)
    (step (stateAt (validating .modelB 0x028C803240#40) [ticking])) = true := by decide
theorem test_validate_bad_checksum : nextSatisfies (reads 0x00000022#32 0 0 0)
    (step (stateAt (validating .modelA 0x330019004B#40) [ticking])) = true := by decide
theorem test_validate_largest_b : nextSatisfies (reads 0x0000008E#32 0x0000FFFF#32 0xFFFF8001#32 0)
    (step (stateAt (validating .modelB 0xFFFFFFFFFC#40) [ticking])) = true := by decide
theorem test_validate_largest_a : nextSatisfies (reads 0x00000006#32 0x00000AF5#32 0x00000AF5#32 0)
    (step (stateAt (validating .modelA 0xFFFFFFFFFC#40) [ticking])) = true := by decide
theorem test_validate_negative_zero : nextSatisfies (reads 0x0000008E#32 0 0 0)
    (step (stateAt (validating .modelB 0x0000800080#40) [ticking])) = true := by decide

/-! ### Fetching -/

theorem test_fetch_word_runs_first : nextSatisfies (fun t => busRead 4 t == 770)
    (step (State.reset.withFetchWord 32 0x00FA0003)) = true := by decide

/-! ### Witnesses: states, ports and operands that meet the hypotheses of the statements -/

/-- In IDLE, with one cycle of ports. -/
def idleWith (i : Inputs) : State := stateAt (ready .modelA) [i]

/-- The ports of a schedule with a tick in every cycle and these samples of the line. -/
def sampled (samples : List Bool) : List Inputs := samples.map (fun b => { ticking with dqIn := b })

theorem noReset_sampled (l : List Bool) : NoReset (sampled l) := by
  intro i h
  obtain ⟨b, -, rfl⟩ := List.mem_map.1 h
  rfl
theorem padWorks_sampled (l : List Bool) : PadWorks (sampled l) := by
  intro i h _
  obtain ⟨b, -, rfl⟩ := List.mem_map.1 h
  rfl
theorem endsOnTick_sampled (l : List Bool) (b : Bool) : endsOnTick (sampled (l ++ [b])) = true := by
  simp [endsOnTick, sampled, ticking]
theorem lineSamples_sampled (l : List Bool) : lineSamples (sampled l) = l := by
  induction l with
  | nil => rfl
  | cons b l ih => simpa [lineSamples, sampled, ticking] using ih

theorem witness_DecodeInvertsEncode :
    ((-32768 : Int) ≤ -32768 ∧ (-32768 : Int) ≤ 32767) ∧ (Instr.f2c (-32768)).wellFormed = true ∧
    decode 0xABCD0001#32 = .command .begin ∧ decode 0x00000002#32 = .command .read ∧ decode 0#32 = .command .nop := by decide

theorem witness_DecoderGivesSixVerdicts :
    (0x00008001#32).extractLsb' 3 13 ≠ 0 ∧
    ((0x12340000#32).extractLsb' 3 13 = 0 ∧ (0x12340000#32).extractLsb' 0 3 = 0) ∧
    ((0xABCD0001#32).extractLsb' 3 13 = 0 ∧ (0xABCD0001#32).extractLsb' 0 3 = 1) ∧
    ((0x00000002#32).extractLsb' 3 13 = 0 ∧ (0x00000002#32).extractLsb' 0 3 = 2) ∧
    ((0x80000003#32).extractLsb' 3 13 = 0 ∧ (0x80000003#32).extractLsb' 0 3 = 3) ∧
    ((0x7FFF0004#32).extractLsb' 3 13 = 0 ∧ (0x7FFF0004#32).extractLsb' 0 3 = 4) ∧
    (5 ≤ ((0x00000005#32).extractLsb' 0 3).toNat ∧ 5 ≤ ((0xFFFFFFFF#32).extractLsb' 0 3).toNat) ∧
    (0x00000001#32).extractLsb' 0 16 = (0xABCD0001#32).extractLsb' 0 16 := by decide

theorem witness_StepRunsTheDecodedCommand :
    (∃ s t, s.params.Legal ∧ s.regs.phase.used = true ∧ CommandWrite s.inputs (.command (.c2f (-1))) ∧
      s.regs.phase = .beginWait ∧ exec (.c2f (-1)) s = .next t) ∧
    (∃ s t, s.params.Legal ∧ s.regs.phase.used = true ∧ CommandWrite s.inputs (.command .begin) ∧
      s.regs.phase = .idle ∧ exec .begin s = .next t) ∧
    (∃ (s t : State), s.params.Legal ∧ s.regs.phase = .idle ∧ (Instr.c2f 32767).wellFormed = true ∧
      exec (.c2f 32767) (s.withFetchWord 32 (encode (.c2f 32767)).toNat) = .next t) :=
  ⟨⟨stateAt (busyIn .beginWait 0) [writing 0xFFFF0003#32], _, by decide, by decide, by decide, by decide, rfl⟩,
    ⟨idleWith (writing 0x00000001#32), _, by decide, by decide, by decide, by decide, rfl⟩,
    ⟨idleWith ticking, _, by decide, by decide, by decide, rfl⟩⟩

theorem witness_StepStopsOnlyOutOfRangeOrUnused :
    (∃ s : State, s.params.Legal ∧ s.inputs.rst = true ∧ s.regs.phase.used = false) ∧
    (∃ s : State, s.params.Legal ∧ s.inputs.rst = false ∧ s.regs.phase.used = true) ∧
    (∃ s : State, s.params.Legal ∧ s.inputs.rst = false ∧ s.regs.phase.used = false) ∧
    (∃ s : State, ¬s.params.Legal) :=
  ⟨⟨stateAt (busyIn (.unused 6) 0) [{ ticking with rst := true }], by decide⟩, ⟨idleWith ticking, by decide⟩,
    ⟨stateAt (busyIn (.unused 0) 0) [ticking], by decide⟩,
    ⟨{ idleWith ticking with params := { short with bitThreshold := 4 } }, by decide⟩⟩

theorem witness_ResetCycleWritesEveryRegister :
    ∃ s : State, s.params.Legal ∧ s.inputs.rst = true ∧ s.regs.phase = .bitHigh ∧ s.regs.dqLow = true :=
  ⟨stateAt { busyIn .bitHigh 2 with dqLow := true } [{ ticking with rst := true }], by decide⟩

theorem witness_FirstCycleAfterReset :
    (∃ s t : State, s.inputs.rst = true ∧ s.inputs.variant = .modelB ∧ step s = .next t ∧
      CommandWrite t.inputs (.command .begin) ∧ t.inputs.ioErr = false) ∧
    (∃ s t : State, s.inputs.rst = true ∧ s.inputs.variant = .modelA ∧ step s = .next t ∧
      CommandWrite t.inputs (.command .read) ∧ t.inputs.ioErr = false) :=
  ⟨⟨stateAt (busyIn .bitHigh 2) [{ ticking with rst := true, variant := .modelB }, writing 0x00000001#32], _,
      by decide, by decide, rfl, by decide, by decide⟩,
    ⟨stateAt (busyIn .bitHigh 2) [{ ticking with rst := true }, writing 0x00000002#32], _,
      by decide, by decide, rfl, by decide, by decide⟩⟩

theorem witness_StatusWordFields :
    (∃ s : State, s.regs = resetRegs .modelA) ∧ (∃ s : State, s.regs = resetRegs .modelB) ∧
    { writing 0x00000001#32 with busAddr := 1 }.busAddr = 1 :=
  ⟨⟨stateAt (resetRegs .modelA) [], rfl⟩, ⟨stateAt (resetRegs .modelB) [], rfl⟩, rfl⟩

theorem witness_DataRegisterReads :
    ((0 : BitVec 3) = 0 ∨ 5 ≤ (0 : BitVec 3).toNat) ∧ ((5 : BitVec 3) = 0 ∨ 5 ≤ (5 : BitVec 3).toNat) ∧
    ((7 : BitVec 3) = 0 ∨ 5 ≤ (7 : BitVec 3).toNat) ∧ { writing 0x1234#32 with busAddr := 2 }.busAddr = 2 ∧
    { writing 0x1234#32 with busAddr := 4 }.busAddr = 4 := by decide

theorem witness_WritesOffCmdHaveNoEffect :
    { writing 0x00000001#32 with busAddr := 1 }.busAddr ≠ 0 ∧ { writing 0x00000001#32 with busAddr := 7 }.busAddr ≠ 0 := by
  decide

theorem witness_NopDoesNothing : (0xFFFF0000#32).extractLsb' 0 16 = 0 := by decide

theorem witness_BeginAccepted :
    (∃ s : State, s.regs.phase = .idle ∧ s.inputs.ioErr = false) ∧ (∃ s : State, s.regs.phase = .idle ∧ s.inputs.ioErr = true) :=
  ⟨⟨idleWith (writing 0x00000001#32), by decide⟩, ⟨idleWith { writing 0x00000001#32 with ioErr := true }, by decide⟩⟩

theorem witness_ReadAccepted :
    (∃ s : State, s.regs.phase = .idle ∧ s.regs.init = false ∧ s.inputs.ioErr = false) ∧
    (∃ s : State, s.regs.phase = .idle ∧ s.inputs.ioErr = true) :=
  ⟨⟨stateAt (resetRegs .modelA) [writing 0x00000002#32], by decide⟩,
    ⟨idleWith { writing 0x00000002#32 with ioErr := true }, by decide⟩⟩

theorem witness_BusyBeginOrReadOnlySetsOverrun :
    ∃ (s : State) (i j : Inputs), s.params.Legal ∧ s.regs.phase.used = true ∧ s.regs.phase ≠ .idle ∧
      CommandWrite i (.command .begin) ∧ CommandWrite j (.command .read) :=
  ⟨stateAt (busyIn .validate 0) [], writing 0x00000001#32, writing 0x00000002#32, by decide⟩

theorem witness_IllegalWordOnlySetsIll :
    ∃ (s : State) (i j : Inputs), s.params.Legal ∧ s.regs.phase.used = true ∧
      CommandWrite i (.illegal .reservedField) ∧ CommandWrite j (.illegal .reservedOpcode) :=
  ⟨stateAt (busyIn .ackLow 1) [], writing 0x00008001#32, writing 0x00000005#32, by decide⟩

theorem witness_C2fWritesConv :
    OperandFits (-32768) ∧ OperandFits 32767 ∧ (0x80000003#32).extractLsb' 0 16 = 3 ∧
    ∃ (s : State) (i : Inputs), s.params.Legal ∧ s.regs.phase.used = true ∧ CommandWrite i (.command (.c2f (-32768))) :=
  ⟨by decide, by decide, by decide, stateAt (busyIn .bitLow 1) [], writing 0x80000003#32, by decide⟩

theorem witness_F2cWritesConv :
    OperandFits (-32768) ∧ OperandFits 32767 ∧ (0x7FFF0004#32).extractLsb' 0 16 = 4 ∧
    ∃ (s : State) (i : Inputs), s.params.Legal ∧ s.regs.phase.used = true ∧ CommandWrite i (.command (.f2c 32767)) :=
  ⟨by decide, by decide, by decide, stateAt (busyIn .bitLow 1) [], writing 0x7FFF0004#32, by decide⟩

theorem witness_CommandFrame :
    (∃ s t : State, s.regs.phase = .beginWait ∧ exec .nop s = .next t) ∧
    (∃ s t : State, s.regs.phase = .beginWait ∧ exec (.c2f 0) s = .next t) ∧
    (∃ s t : State, s.regs.phase = .beginWait ∧ exec (.f2c 0) s = .next t) ∧
    (∃ s t : State, s.regs.phase = .beginWait ∧ exec .begin s = .next t) ∧
    (∃ s t : State, s.regs.phase = .beginWait ∧ exec .read s = .next t) ∧
    (∃ s t : State, s.regs.phase = .idle ∧ exec .begin s = .next t) ∧
    (∃ s t : State, s.regs.phase = .idle ∧ exec .read s = .next t) :=
  ⟨⟨stateAt (busyIn .beginWait 1) [ticking], _, rfl, rfl⟩, ⟨stateAt (busyIn .beginWait 1) [ticking], _, rfl, rfl⟩,
    ⟨stateAt (busyIn .beginWait 1) [ticking], _, rfl, rfl⟩, ⟨stateAt (busyIn .beginWait 1) [ticking], _, rfl, rfl⟩,
    ⟨stateAt (busyIn .beginWait 1) [ticking], _, rfl, rfl⟩, ⟨idleWith ticking, _, rfl, rfl⟩, ⟨idleWith ticking, _, rfl, rfl⟩⟩

theorem witness_BeginWaitCycle :
    (∃ s : State, s.params.Legal ∧ QuietBus s.inputs ∧ s.regs.phase = .beginWait ∧ s.regs.cnt < s.params.beginWaitTicks ∧
      s.inputs.tick = false) ∧
    (∃ s : State, s.params.Legal ∧ QuietBus s.inputs ∧ s.regs.phase = .beginWait ∧ s.regs.cnt < s.params.beginWaitTicks ∧
      s.inputs.tick = true ∧ s.regs.cnt + 1 = s.params.beginWaitTicks) ∧
    (∃ s : State, s.params.Legal ∧ QuietBus s.inputs ∧ s.regs.phase = .beginWait ∧ s.regs.cnt < s.params.beginWaitTicks ∧
      s.inputs.tick = true ∧ s.regs.cnt + 1 < s.params.beginWaitTicks) :=
  ⟨⟨stateAt (busyIn .beginWait 2) [{ ticking with tick := false }], by decide⟩,
    ⟨stateAt (busyIn .beginWait 2) [ticking], by decide⟩, ⟨stateAt (busyIn .beginWait 1) [ticking], by decide⟩⟩

/-- The hypotheses of `StartLowCycle` common to its clauses. -/
abbrev InStartLow (s : State) (hold : Nat) : Prop :=
  s.params.Legal ∧ QuietBus s.inputs ∧ s.regs.phase = .startLow ∧
    (s.regs.variant = .modelA → hold = s.params.startHoldATicks) ∧
    (s.regs.variant = .modelB → hold = s.params.startHoldBTicks) ∧ s.regs.cnt < hold

theorem witness_StartLowCycle :
    (∃ s, InStartLow s 2 ∧ s.regs.variant = .modelB ∧ s.inputs.tick = false) ∧
    (∃ s, InStartLow s 2 ∧ s.inputs.tick = true ∧ s.regs.cnt + 1 < 2 ∧ s.inputs.ioErr = true) ∧
    (∃ s, InStartLow s 2 ∧ s.inputs.tick = true ∧ s.regs.cnt + 1 = 2 ∧ s.inputs.ioErr = false) ∧
    (∃ s, InStartLow s 2 ∧ s.inputs.tick = true ∧ s.regs.cnt + 1 = 2 ∧ s.inputs.ioErr = true) :=
  ⟨⟨stateAt (busyIn .startLow 1) [{ ticking with tick := false }], by decide⟩,
    ⟨stateAt (busyIn .startLow 0) [{ ticking with ioErr := true }], by decide⟩,
    ⟨stateAt (busyIn .startLow 1) [ticking], by decide⟩,
    ⟨stateAt (busyIn .startLow 1) [{ ticking with ioErr := true }], by decide⟩⟩

theorem witness_StartRelCycle :
    (∃ s : State, s.params.Legal ∧ QuietBus s.inputs ∧ s.regs.phase = .startRel ∧ s.regs.cnt < s.params.releaseTicks ∧
      s.inputs.tick = false) ∧
    (∃ s : State, s.params.Legal ∧ QuietBus s.inputs ∧ s.regs.phase = .startRel ∧ s.regs.cnt < s.params.releaseTicks ∧
      s.inputs.tick = true ∧ s.regs.cnt + 1 = s.params.releaseTicks) ∧
    (∃ s : State, s.params.Legal ∧ QuietBus s.inputs ∧ s.regs.phase = .startRel ∧ s.regs.cnt < s.params.releaseTicks ∧
      s.inputs.tick = true ∧ s.regs.cnt + 1 < s.params.releaseTicks) :=
  ⟨⟨stateAt (busyIn .startRel 0) [{ ticking with tick := false }], by decide⟩,
    ⟨stateAt (busyIn .startRel 1) [ticking], by decide⟩, ⟨stateAt (busyIn .startRel 0) [ticking], by decide⟩⟩

/-- The hypotheses of `WaitPhasesEndAtTheNthTick` common to its clauses. -/
abbrev InWait (s : State) (n : Nat) (ins : List Inputs) : Prop :=
  s.params.Legal ∧ waitLength s.params s.regs.variant s.regs.phase = some n ∧ s.regs.cnt = 0 ∧ s.pending = ins ++ [] ∧ NoReset ins

theorem witness_WaitPhasesEndAtTheNthTick :
    (∃ s ins, InWait s 3 ins ∧ s.regs.phase = .beginWait ∧ tickCount ins < 3) ∧
    (∃ s ins last, InWait s 3 ins ∧ s.regs.phase = .beginWait ∧ last ∈ ins.getLast? ∧ tickCount ins = 3 ∧ last.tick = true) ∧
    (∃ s ins last, InWait s 2 ins ∧ s.regs.phase = .startLow ∧ last ∈ ins.getLast? ∧ tickCount ins = 2 ∧ last.tick = true ∧
      last.ioErr = false) ∧
    (∃ s ins last, InWait s 2 ins ∧ s.regs.phase = .startLow ∧ last ∈ ins.getLast? ∧ tickCount ins = 2 ∧ last.tick = true ∧
      last.ioErr = true) ∧
    (∃ s ins last, InWait s 2 ins ∧ s.regs.phase = .startRel ∧ last ∈ ins.getLast? ∧ tickCount ins = 2 ∧ last.tick = true) := by
  refine ⟨⟨stateAt (busyIn .beginWait 0) [ticking, writing 0x00000002#32], [ticking, writing 0x00000002#32], ?_⟩,
    ⟨stateAt (busyIn .beginWait 0) [ticking, ticking, ticking], [ticking, ticking, ticking], ticking, ?_⟩,
    ⟨stateAt (busyIn .startLow 0) [ticking, ticking], [ticking, ticking], ticking, ?_⟩,
    ⟨stateAt (busyIn .startLow 0) [ticking, { ticking with ioErr := true }], [ticking, { ticking with ioErr := true }],
      { ticking with ioErr := true }, ?_⟩,
    ⟨stateAt (busyIn .startRel 0) [ticking, ticking], [ticking, ticking], ticking, ?_⟩⟩ <;> decide

theorem witness_BeginIsIdempotent :
    ∃ (s : State) (c : Inputs) (w idle : List Inputs), s.params.Legal ∧ s.regs.phase = .idle ∧ CommandWrite c (.command .begin) ∧
      c.ioErr = false ∧ (∀ i ∈ w, QuietBus i) ∧ tickCount w = s.params.beginWaitTicks ∧ endsOnTick w = true ∧
      (∀ i ∈ idle, QuietBus i) ∧ s.pending = (c :: w) ++ (idle ++ ((c :: w) ++ [])) :=
  ⟨stateAt (ready .modelA) ((writing 0x00000001#32 :: List.replicate 3 ticking) ++
      ([ticking, { ticking with tick := false }] ++ (writing 0x00000001#32 :: List.replicate 3 ticking))),
    writing 0x00000001#32, List.replicate 3 ticking, [ticking, { ticking with tick := false }], by decide⟩

theorem witness_MeasurementCountsOrFails :
    (∃ s : State, s.params.Legal ∧ QuietBus s.inputs ∧ expectedLevel s.regs.phase = some false ∧ s.inputs.tick = true ∧
      s.inputs.ioErr = true) ∧
    (∃ s : State, s.params.Legal ∧ QuietBus s.inputs ∧ expectedLevel s.regs.phase = some false ∧ s.inputs.tick = true ∧
      s.inputs.ioErr = false ∧ s.inputs.dqIn = false ∧ s.regs.cnt + 1 > s.params.maxCycles) ∧
    (∃ s : State, s.params.Legal ∧ QuietBus s.inputs ∧ expectedLevel s.regs.phase = some true ∧ s.inputs.tick = true ∧
      s.inputs.ioErr = false ∧ s.inputs.dqIn = true ∧ s.regs.cnt + 1 ≤ s.params.maxCycles) :=
  ⟨⟨stateAt (busyIn .ackLow 0) [{ ticking with ioErr := true }], by decide⟩, ⟨stateAt (busyIn .bitLow 3) [ticking], by decide⟩,
    ⟨stateAt (busyIn .ackHigh 2) [{ ticking with dqIn := true }], by decide⟩⟩

/-- A tick cycle of a working pad without reset and bus write, with legal parameters. -/
abbrev Sampling (s : State) : Prop := s.params.Legal ∧ QuietBus s.inputs ∧ s.inputs.tick = true ∧ s.inputs.ioErr = false

theorem witness_EndingSampleStartsTheNextPulse :
    (∃ s, Sampling s ∧ s.regs.phase = .ackLow ∧ s.inputs.dqIn = true) ∧
    (∃ s, Sampling s ∧ s.regs.phase = .ackHigh ∧ s.inputs.dqIn = false) ∧
    (∃ s, Sampling s ∧ s.regs.phase = .bitLow ∧ s.inputs.dqIn = true) :=
  ⟨⟨stateAt (busyIn .ackLow 0) [{ ticking with dqIn := true }], by decide⟩, ⟨stateAt (busyIn .ackHigh 3) [ticking], by decide⟩,
    ⟨stateAt (busyIn .bitLow 1) [{ ticking with dqIn := true }], by decide⟩⟩

theorem witness_DataPulseEndShiftsItsBitIn :
    (∃ s, Sampling s ∧ s.regs.phase = .bitHigh ∧ s.inputs.dqIn = false ∧ s.regs.bitIdx.toNat + 1 = 40) ∧
    (∃ s, Sampling s ∧ s.regs.phase = .bitHigh ∧ s.inputs.dqIn = false ∧ s.regs.bitIdx.toNat + 1 < 40) :=
  ⟨⟨stateAt { busyIn .bitHigh 2 with bitIdx := 39 } [ticking], by decide⟩,
    ⟨stateAt { busyIn .bitHigh 1 with bitIdx := 38 } [ticking], by decide⟩⟩

/-- A missing first acknowledgment, separators of MAX_CYCLES samples, data pulses at and above the threshold in turn. -/
theorem witness_CaptureReadsTheRunLengths :
    ∃ (s : State) (ackLow ackHigh : Nat) (low high : Nat → Nat) (ins : List Inputs),
      s.params.Legal ∧ s.regs.phase = .ackLow ∧ s.regs.cnt = 0 ∧ s.regs.bitIdx = 0 ∧
      ackLow ≤ s.params.maxCycles ∧ 1 ≤ ackHigh ∧ ackHigh ≤ s.params.maxCycles ∧
      (∀ k, k < 40 → 1 ≤ low k ∧ low k ≤ s.params.maxCycles ∧ 1 ≤ high k ∧ high k ≤ s.params.maxCycles) ∧
      s.pending = ins ++ [] ∧ NoReset ins ∧ PadWorks ins ∧ endsOnTick ins = true ∧
      lineSamples ins = captureSamples ackLow ackHigh low high :=
  ⟨stateAt (busyIn .ackLow 0) (sampled (captureSamples 0 3 (fun _ => 3) (fun k => 1 + k % 2))), 0, 3, fun _ => 3, fun k => 1 + k % 2,
    sampled (captureSamples 0 3 (fun _ => 3) (fun k => 1 + k % 2)),
    by decide, rfl, rfl, rfl, by decide, by decide, by decide, by decide, (List.append_nil _).symm, noReset_sampled _, padWorks_sampled _,
    endsOnTick_sampled _ _, lineSamples_sampled _⟩

theorem witness_ConstantLineTimesOut :
    ∃ (s : State) (ins ins' : List Inputs), s.params.Legal ∧ expectedLevel s.regs.phase = some false ∧
      s.regs.cnt ≤ s.params.maxCycles ∧ NoReset ins ∧ PadWorks ins ∧ NoReset ins' ∧ PadWorks ins' ∧
      (s.pending = ins ++ [ticking] ∧ lineSamples ins = pulse false 3 ∧ s.regs.cnt + 3 ≤ s.params.maxCycles) ∧
      (s.pending = ins' ++ [] ∧ lineSamples ins' = pulse false 4 ∧ s.regs.cnt + 4 = s.params.maxCycles + 1 ∧
        endsOnTick ins' = true) :=
  ⟨stateAt (busyIn .ackLow 0) (sampled (pulse false 4)), sampled (pulse false 3), sampled (pulse false 4), by decide⟩

/-- The state a READ has just been accepted in meets the invariant. -/
theorem inv_just_accepted (ins : List Inputs) :
    (stateAt { busyIn .startLow 0 with dqLow := true } ins).Inv := by
  have h : Regs.Inv short { busyIn .startLow 0 with dqLow := true } := by constructor <;> decide
  exact ⟨(by decide : short.Legal), h⟩

theorem witness_ReadIsBusyForABoundedTime :
    ∃ (s : State) (ins : List Inputs), s.Inv ∧ s.regs.phase = .startLow ∧ s.regs.cnt = 0 ∧
      waitLength s.params s.regs.variant .startLow = some 2 ∧ s.pending = ins ++ [] ∧ NoReset ins ∧
      tickCount ins = 2 + s.params.releaseTicks + 82 * s.params.maxCycles + 1 :=
  ⟨stateAt { busyIn .startLow 0 with dqLow := true } (List.replicate 251 ticking), List.replicate 251 ticking,
    inv_just_accepted _, by decide, by decide, by decide, (List.append_nil _).symm,
    fun _ h => List.eq_of_mem_replicate h ▸ rfl, by rw [tickCount, List.countP_replicate]; rfl⟩

theorem witness_ValidateNeedsAMinimumOfTicks :
    ∃ (s t : State) (ins : List Inputs) (k : Nat), s.Inv ∧ s.regs.phase = .startLow ∧ s.regs.cnt = 0 ∧
      waitLength s.params s.regs.variant .startLow = some 2 ∧ s.pending = ins ++ [] ∧ NoReset ins ∧
      tickCount ins < 2 + s.params.releaseTicks + 82 ∧ k ≤ ins.length ∧ Host.Core.run core k s = .next t :=
  ⟨stateAt { busyIn .startLow 0 with dqLow := true } (List.replicate 3 ticking), _, List.replicate 3 ticking, 3,
    inv_just_accepted _, by decide, by decide, by decide, by decide, by decide, by decide, by decide, rfl⟩

theorem witness_NoTickNoProgress :
    ∃ (s : State) (ins : List Inputs), s.params.Legal ∧ s.regs.phase.used = true ∧ s.regs.phase ≠ .idle ∧ s.regs.phase ≠ .validate ∧
      s.pending = ins ++ [] ∧ (∀ i ∈ ins, QuietBus i ∧ i.tick = false) :=
  ⟨stateAt (busyIn .bitLow 3) [{ ticking with tick := false, ioErr := true }], [{ ticking with tick := false, ioErr := true }],
    by decide⟩

/-- VALIDATE in a cycle without reset and bus write, with legal parameters. -/
abbrev Validating (s : State) : Prop := s.params.Legal ∧ QuietBus s.inputs ∧ s.regs.phase = .validate

theorem witness_BadChecksumEndsTheRead : ∃ s, Validating s ∧ ¬ChecksumHolds s.regs.frame :=
  ⟨stateAt (validating .modelA 0x330019004B#40) [ticking], by decide⟩

theorem witness_ModelAReading : ∃ s, Validating s ∧ ChecksumHolds s.regs.frame ∧ s.regs.variant = .modelA :=
  ⟨stateAt (validating .modelA 0xFFFFFFFFFC#40) [ticking], by decide⟩

theorem witness_ModelBReading :
    (∃ s, Validating s ∧ ChecksumHolds s.regs.frame ∧ s.regs.variant = .modelB ∧ 128 ≤ byteValue s.regs.frame 2) ∧
    (∃ s, Validating s ∧ ChecksumHolds s.regs.frame ∧ s.regs.variant = .modelB ∧ ¬128 ≤ byteValue s.regs.frame 2) :=
  ⟨⟨stateAt (validating .modelB 0x0000800080#40) [ticking], by decide⟩,
    ⟨stateAt (validating .modelB 0x028C00FA88#40) [ticking], by decide⟩⟩

theorem witness_SingleBitFlipFailsTheChecksum : 39 < 40 ∧ checksumOk 0x320019004B#40 = true := by decide

theorem witness_ZeroFramePassesAllOnesFails :
    (∃ s, Validating s ∧ s.regs.frame = 0) ∧ (∃ s, Validating s ∧ s.regs.frame = 0xFFFFFFFFFF#40) :=
  ⟨⟨stateAt (validating .modelB 0) [ticking], by decide⟩, ⟨stateAt (validating .modelB 0xFFFFFFFFFF#40) [ticking], by decide⟩⟩

/-- A state in the middle of a measurement, its acknowledgment one sample from the Timeout. -/
def nearTimeout : State := stateAt (busyIn .ackHigh 3) [{ ticking with dqIn := true }]

theorem inv_nearTimeout : nearTimeout.Inv := ⟨by decide, by constructor <;> decide⟩

theorem witness_StepKeepsInvariant : ∃ s t : State, s.Inv ∧ step s = .next t := ⟨nearTimeout, _, inv_nearTimeout, rfl⟩

theorem witness_InvariantStatesNeverStop : ∃ s : State, s.Inv ∧ s.regs.phase ≠ .idle := ⟨nearTimeout, inv_nearTimeout, by decide⟩

theorem witness_ReachableIdleIsClean : ∃ s : State, Reachable s ∧ s.regs.phase = .idle :=
  ⟨_, .afterStep (stateAt (resetRegs .modelA) [{ writing 0x00000001#32 with ioErr := true }]) _
    (.afterReset _ .modelA (by decide) rfl) rfl, rfl⟩

theorem witness_PhaseMovesOnlyByTheTable :
    (∃ s t : State, s.Inv ∧ step s = .next t ∧ TransitionRow s.params s.regs s.inputs .idle) ∧
    (∃ s t : State, s.Inv ∧ step s = .next t ∧ ∀ ph, ¬TransitionRow s.params s.regs s.inputs ph) := by
  refine ⟨⟨nearTimeout, _, inv_nearTimeout, rfl, .timedOut rfl rfl rfl rfl (by decide)⟩,
    ⟨stateAt (resetRegs .modelA) [ticking], _, ⟨by decide, by constructor <;> decide⟩, rfl, ?_⟩⟩
  intro ph hrow
  cases hrow <;> simp_all [CommandWrite, stateAt, resetRegs, State.inputs, ticking, expectedLevel]

theorem witness_ErrorLeavesTheCleanState : ∃ s t : State, s.Inv ∧ step s = .next t ∧ s.regs.phase ≠ .idle ∧ t.regs.err ≠ .none :=
  ⟨nearTimeout, _, inv_nearTimeout, rfl, by decide, by decide⟩

theorem witness_IdleIsQuiescent : ∃ s : State, s.params.Legal ∧ s.regs.phase = .idle ∧ QuietBus s.inputs :=
  ⟨idleWith ticking, by decide⟩

theorem witness_OutcomeStaysUntilTheNextCommand :
    (∃ s t : State, s.inputs.rst = false ∧ step s = .next t ∧ s.regs.phase = .idle ∧
      ¬CommandWrite s.inputs (.command .begin) ∧ ¬CommandWrite s.inputs (.command .read)) ∧
    (∃ s t : State, s.inputs.rst = false ∧ step s = .next t ∧ s.regs.phase ≠ .idle ∧ t.regs.phase ≠ .idle) :=
  ⟨⟨idleWith (writing 0x00FA0003#32), _, by decide, rfl, by decide, by decide, by decide⟩,
    ⟨stateAt (busyIn .ackHigh 2) [ticking], _, by decide, rfl, by decide, by decide⟩⟩

theorem witness_InitChangesExactly :
    (∃ s t : State, step s = .next t ∧ s.inputs.rst = true) ∧
    (∃ s t : State, step s = .next t ∧ s.regs.phase = .idle ∧ CommandWrite s.inputs (.command .begin) ∧ s.inputs.ioErr = true) ∧
    (∃ s t : State, step s = .next t ∧ s.inputs.rst = false ∧ s.regs.phase = .beginWait ∧ s.inputs.tick = true ∧
      s.regs.cnt + 1 = s.params.beginWaitTicks) ∧
    (∃ s t : State, step s = .next t ∧ s.inputs.rst = false ∧ s.regs.phase = .startLow ∧ s.regs.init = true) :=
  ⟨⟨idleWith { ticking with rst := true }, _, rfl, rfl⟩,
    ⟨idleWith { writing 0x00000001#32 with ioErr := true }, _, rfl, by decide⟩,
    ⟨stateAt (busyIn .beginWait 2) [ticking], _, rfl, by decide⟩, ⟨stateAt (busyIn .startLow 0) [ticking], _, rfl, by decide⟩⟩

theorem witness_ValidExactly : ∃ s t : State, s.Inv ∧ step s = .next t ∧ t.regs.valid = true :=
  ⟨stateAt (validating .modelA 0x320019004B#40) [ticking], _, ⟨by decide, by constructor <;> decide⟩, rfl, by decide⟩

theorem witness_OutputsFollowThePhase : ∃ s : State, Reachable s ∧ s.regs.phase = .startLow :=
  ⟨_, .afterStep (stateAt (resetRegs .modelA) [writing 0x00000002#32]) _ (.afterReset _ .modelA (by decide) rfl) rfl, rfl⟩

theorem witness_StickyFlagsExactly :
    (∃ s t : State, step s = .next t ∧ s.inputs.rst = true) ∧ (∃ s t : State, step s = .next t ∧ s.inputs.rst = false) :=
  ⟨⟨idleWith { ticking with rst := true }, _, rfl, rfl⟩, ⟨idleWith ticking, _, rfl, rfl⟩⟩

theorem witness_ConvWrittenOnlyByConversions :
    (∃ s t : State, step s = .next t ∧ CommandWrite s.inputs (.command (.c2f (-32768)))) ∧
    (∃ s t : State, step s = .next t ∧ CommandWrite s.inputs (.command (.f2c 32767))) ∧
    (∃ s t : State, step s = .next t ∧ s.inputs.rst = true) ∧
    (∃ s t : State, step s = .next t ∧ s.inputs.rst = false ∧ s.inputs.busWr = false) ∧
    (-58662 ≤ (0 : Word).toInt ∧ (0 : Word).toInt ≤ 59301) :=
  ⟨⟨idleWith (writing 0x80000003#32), _, rfl, by decide⟩, ⟨idleWith (writing 0x7FFF0004#32), _, rfl, by decide⟩,
    ⟨idleWith { ticking with rst := true }, _, rfl, rfl⟩, ⟨idleWith ticking, _, rfl, rfl, rfl⟩, by decide⟩

theorem witness_IoErrReadOnlyAtPinOperations :
    ∃ (s : State) (i : Inputs), s.regs.phase = .startLow ∧ s.regs.cnt = 0 ∧ ¬PinOperation s.params s.regs i :=
  ⟨stateAt (busyIn .startLow 0) [], ticking, rfl, rfl, by rintro (⟨h, -⟩ | ⟨-, -, h⟩ | ⟨h, -⟩) <;> revert h <;> decide⟩

theorem witness_LineReadOnlyAtSamples :
    ∃ (s : State) (i : Inputs), s.regs.phase = .ackLow ∧ ¬((expectedLevel s.regs.phase).isSome = true ∧ i.tick = true) :=
  ⟨stateAt (busyIn .ackLow 0) [], { ticking with tick := false }, by decide⟩

theorem witness_VariantTakesTheStrapOnlyInReset :
    (∃ s t : State, step s = .next t ∧ s.inputs.rst = true ∧ s.inputs.variant ≠ s.regs.variant) ∧
    (∃ s t : State, step s = .next t ∧ s.inputs.rst = false ∧ s.inputs.variant ≠ s.regs.variant) ∧ ticking.rst = false :=
  ⟨⟨idleWith { ticking with rst := true, variant := .modelB }, _, rfl, by decide, by decide⟩,
    ⟨idleWith { ticking with variant := .modelB }, _, rfl, by decide, by decide⟩, rfl⟩

theorem witness_HostWriteAndSequencerDoNotCompete :
    (∃ s t : State, s.regs.phase ≠ .idle ∧ exec (.c2f 371) s = .next t) ∧
    (∃ (s : State) (i j : Inputs) (t u : State), s.regs.phase ≠ .idle ∧ step (s.withInputs i) = .next t ∧
      step (s.withInputs { i with busWr := j.busWr, busAddr := j.busAddr, busWdata := j.busWdata }) = .next u) :=
  ⟨⟨stateAt (busyIn .ackHigh 1) [], _, by decide, rfl⟩,
    ⟨stateAt (busyIn .ackHigh 1) [], ticking, writing 0x00000002#32, _, _, by decide, rfl, rfl⟩⟩

theorem witness_RdivIsTheNearestInteger : (0 : Int) < 1 ∧ (1 : Int) % 2 = 1 ∧ (0 : Int) < 9 ∧ (9 : Int) % 2 = 1 := by decide

theorem witness_ConversionErrorBounds : OperandFits (-32768) ∧ OperandFits 32765 ∧ (32765 : Int) % 5 = 0 := by decide

theorem witness_ConversionRanges : OperandFits (-32768) ∧ OperandFits 32767 := by decide

theorem witness_ConversionRoundTrip :
    ((-18382 : Int) ≤ -18382 ∧ (-18382 : Int) ≤ 18026) ∧ OperandFits 18026 ∧ OperandFits 18027 := by decide

theorem witness_CounterWidthIsLeast :
    ∃ p : Params, 1 ≤ p.maxCycles ∧ p.bitThreshold ≤ p.maxCycles ∧ 1 ≤ p.beginWaitTicks ∧ 1 ≤ p.startHoldATicks ∧
      1 ≤ p.startHoldBTicks ∧ 1 ≤ p.releaseTicks :=
  ⟨{ short with maxCycles := 1, bitThreshold := 1, beginWaitTicks := 1 }, by decide⟩

end Sys2Proof.Tests
end

section
/-! SUPPORT. CNT_W as the adjoint of `2 ^ ·` at `cntSpan`, from which 00_scope.md R7 follows. -/

namespace Sys2Proof

/-- The `+ 2` of MAX_CYCLES keeps `cntSpan` at least 2, where the model's `log2 (n - 1) + 1` is a ceiling logarithm. -/
theorem Params.two_le_cntSpan (p : Params) : 2 ≤ p.cntSpan :=
  (Nat.le_add_left 2 p.maxCycles).trans (Nat.le_max_left ..)

/-- The two conditions of 00_scope.md R7, one bound per parameter, are one bound on `cntSpan`. -/
theorem Params.cntSpan_le_iff (p : Params) (n : Nat) :
    p.cntSpan ≤ n ↔
      p.maxCycles + 2 ≤ n ∧ p.beginWaitTicks + 1 ≤ n ∧ p.startHoldATicks + 1 ≤ n ∧
      p.startHoldBTicks + 1 ≤ n ∧ p.releaseTicks + 1 ≤ n := by
  simp only [Params.cntSpan, Nat.max_le]

/-- CNT_W is the least width that counts to `cntSpan`. -/
theorem Params.cntW_le_iff (p : Params) (w : Nat) : p.cntW ≤ w ↔ p.cntSpan ≤ 2 ^ w := by
  have hspan := p.two_le_cntSpan
  calc p.cntW ≤ w
    _ ↔ Nat.log2 (p.cntSpan - 1) < w := Nat.succ_le_iff
    _ ↔ p.cntSpan - 1 < 2 ^ w := Nat.log2_lt (by omega)
    _ ↔ p.cntSpan ≤ 2 ^ w := by omega

/-- The formula of 00_scope.md R7: the ceiling logarithm is bounded by the same widths as CNT_W. -/
theorem Params.cntW_eq_clog (p : Params) : p.cntW = Nat.clog 2 p.cntSpan :=
  eq_of_forall_ge_iff fun w => (p.cntW_le_iff w).trans (Nat.clog_le_iff_le_pow Nat.one_lt_two).symm

/-- Every upper bound of the table of 00_scope.md R6 that names CNT_W holds by the choice of CNT_W. -/
theorem Params.legal_of_lower_bounds (p : Params) (hcycles : 1 ≤ p.maxCycles) (hthreshold : p.bitThreshold ≤ p.maxCycles)
    (hbegin : 1 ≤ p.beginWaitTicks) (hholdA : 1 ≤ p.startHoldATicks) (hholdB : 1 ≤ p.startHoldBTicks)
    (hrelease : 1 ≤ p.releaseTicks) : p.Legal := by
  obtain ⟨hbegin', hholdA', hholdB', hrelease'⟩ := p.waits_le
  exact ⟨⟨hcycles, Nat.le_sub_of_add_le p.maxCycles_add_two_le⟩, hthreshold, ⟨hbegin, Nat.le_sub_of_add_le hbegin'⟩,
    ⟨hholdA, Nat.le_sub_of_add_le hholdA'⟩, ⟨hholdB, Nat.le_sub_of_add_le hholdB'⟩,
    ⟨hrelease, Nat.le_sub_of_add_le hrelease'⟩⟩

/-- Settles O59: CNT_W is the lower adjoint of `2 ^ ·` at `cntSpan`, so it is both the least width and the ceiling
logarithm, and the bounds of 00_scope.md R6 and the absence of wrapping are its instances at CNT_W itself. -/
theorem counterWidthIsLeast : Obligations.CounterWidthIsLeast := by
  intro p hcycles
  refine ⟨fun w => ?least, p.cntW_eq_clog, ?defaults, p.legal_of_lower_bounds hcycles, ?noWrap⟩
  case least => exact (p.cntW_le_iff w).trans (p.cntSpan_le_iff (2 ^ w))
  case defaults => decide
  case noWrap => exact Nat.le_sub_of_add_le p.maxCycles_add_two_le

end Sys2Proof
end

section
/-! SUPPORT. What of a cycle's ports a step reads, which registers the two halves of a cycle write, and the statements on STATUS,
the data registers, VARIANT, the sticky flags and CONV (10_state.md R33, R38, R39, R42, R45, R46). -/

namespace Sys2Proof.Machine

/-! ### The ports a step reads -/

/-- The sequencer reads the timebase, the line and the pad's answer, and no other port. -/
theorem sequencerCycle_congr {i j : Inputs} (htick : i.tick = j.tick) (hline : i.dqIn = j.dqIn) (hpad : i.ioErr = j.ioErr)
    (p : Params) (ph : Phase) (r : Regs) : sequencerCycle p i ph r = sequencerCycle p j ph r := by
  cases i
  cases j
  dsimp only at htick hline hpad
  subst htick hline hpad
  cases ph <;> rfl

/-- The host's half of a cycle reads the word written to CMD and the pad's answer. -/
theorem hostRegs_congr {i j : Inputs} (hword : commandWord i = commandWord j) (hpad : i.ioErr = j.ioErr) (r : Regs) :
    hostRegs i r = hostRegs j r := by
  simp only [hostRegs, hword, hpad]

/-- A step reads of the ports the reset, in a reset cycle the strap, and what the two halves of the cycle read. -/
theorem step_withInputs_congr_ports {i j : Inputs} (hrst : i.rst = j.rst) (hstrap : i.rst = true → i.variant = j.variant)
    (hword : commandWord i = commandWord j) (htick : i.tick = j.tick) (hline : i.dqIn = j.dqIn) (hpad : i.ioErr = j.ioErr)
    (s : State) : step (s.withInputs i) = step (s.withInputs j) := by
  refine step_withInputs_congr hrst ?_
  unfold cycleRegs
  rw [← hrst, hostRegs_congr hword hpad, sequencerCycle_congr htick hline hpad]
  split
  · next hr => rw [hstrap hr]
  · rfl

/-- A write to another address than CMD is as good as none (40_host_commands.md R101). -/
theorem step_withoutWrite {i : Inputs} (haddr : i.busAddr ≠ 0) (s : State) :
    step (s.withInputs i) = step (s.withInputs (withoutWrite i)) := by
  have hword : commandWord i = commandWord (withoutWrite i) := by
    rw [commandWord_eq_none.mpr fun h => haddr h.2, commandWord_eq_none.mpr fun h => Bool.false_ne_true h.1]
  exact step_withInputs_congr_ports (i := i) (j := withoutWrite i) rfl (fun _ => rfl) hword rfl rfl rfl s

/-! ### The registers that the sequencer leaves to the host -/

/-- The sequencer never writes VARIANT. -/
@[simp] theorem sequencerCycle_variant (p : Params) (i : Inputs) (ph : Phase) (r : Regs) :
    (sequencerCycle p i ph r).variant = r.variant := by
  cases ph <;>
    simp only [sequencerCycle, beginWaitCycle, startLowCycle, startRelCycle, measureCycle, dataPulseEnd, validateCycle] <;>
    (repeat' split) <;> rfl

@[simp] theorem sequencerCycle_ovr (p : Params) (i : Inputs) (ph : Phase) (r : Regs) :
    (sequencerCycle p i ph r).ovr = r.ovr :=
  (congrArg Regs.ovr (sequencerCycle_host p i ph r r.ovr r.ill r.conv) :)

@[simp] theorem sequencerCycle_ill (p : Params) (i : Inputs) (ph : Phase) (r : Regs) :
    (sequencerCycle p i ph r).ill = r.ill :=
  (congrArg Regs.ill (sequencerCycle_host p i ph r r.ovr r.ill r.conv) :)

@[simp] theorem sequencerCycle_conv (p : Params) (i : Inputs) (ph : Phase) (r : Regs) :
    (sequencerCycle p i ph r).conv = r.conv :=
  (congrArg Regs.conv (sequencerCycle_host p i ph r r.ovr r.ill r.conv) :)

theorem cycleRegs_reset {i : Inputs} (hr : i.rst = true) (p : Params) (r : Regs) :
    cycleRegs p i r = resetRegs i.variant := by
  rw [cycleRegs, if_pos hr]

theorem cycleRegs_noReset {i : Inputs} (hr : i.rst = false) (p : Params) (r : Regs) :
    cycleRegs p i r = sequencerCycle p i r.phase (hostRegs i r) := by
  simp [cycleRegs, hr]

/-! ### The host's write, by the word's verdict -/

/-- A word has one verdict. -/
theorem CommandWrite.iff_eq {i : Inputs} {v : Verdict} (h : CommandWrite i v) (v' : Verdict) :
    CommandWrite i v' ↔ v = v' := by
  obtain ⟨hr, hwr, haddr, hv⟩ := h
  simp [CommandWrite, hr, hwr, haddr, hv]

theorem hostRegs_command {i : Inputs} {c : Instr} (h : CommandWrite i (.command c)) (r : Regs) :
    hostRegs i r = commandRegs c i.ioErr r := by
  obtain ⟨-, hwr, haddr, hv⟩ := h
  simp [hostRegs, commandWord, hwr, haddr, hv]

theorem hostRegs_illegal {i : Inputs} {why : IllegalWord} (h : CommandWrite i (.illegal why)) (r : Regs) :
    hostRegs i r = r.flagIllegal := by
  obtain ⟨-, hwr, haddr, hv⟩ := h
  simp [hostRegs, commandWord, hwr, haddr, hv]

/-- What the host can do in a cycle without reset: write nothing to CMD, a command, or an illegal word. -/
theorem host_cases {i : Inputs} (hr : i.rst = false) :
    ((∀ v, ¬CommandWrite i v) ∧ ∀ r, hostRegs i r = r) ∨ (∃ c, CommandWrite i (.command c)) ∨
      ∃ why, CommandWrite i (.illegal why) := by
  by_cases hw : i.busWr = true ∧ i.busAddr = 0
  · cases hv : decode i.busWdata with
    | command c => exact .inr (.inl ⟨c, hr, hw.1, hw.2, hv⟩)
    | illegal why => exact .inr (.inr ⟨why, hr, hw.1, hw.2, hv⟩)
  · refine .inl ⟨fun v h => hw ⟨h.2.1, h.2.2.1⟩, fun r => ?_⟩
    simp [hostRegs, commandWord_eq_none.mpr hw]

@[simp] theorem hostRegs_variant (i : Inputs) (r : Regs) : (hostRegs i r).variant = r.variant := by
  unfold hostRegs
  split
  · rfl
  · split
    · exact (commandRegs_frame _ _ r).1
    · rfl

/-! ### The STATUS word, field by field (10_state.md R45) -/

@[simp] theorem busRead_status (s : State) : busRead 1 s = s.regs.status := rfl

/-- A field of STATUS is the register whose bits stand there. -/
theorem Regs.status_extractLsb' {r : Regs} {lo w : Nat} {field : BitVec w}
    (h : ∀ k < w, r.status.getLsbD (lo + k) = field.getLsbD k) : r.status.extractLsb' lo w = field :=
  BitVec.eq_of_getLsbD_eq fun k hk => by simpa [hk] using h k hk

theorem Regs.status_err (r : Regs) : r.status.extractLsb' 4 3 = r.err.code :=
  Regs.status_extractLsb' fun k hk => by rw [Regs.status_getLsbD]; interval_cases k <;> rfl

theorem Regs.status_gap (r : Regs) : r.status.extractLsb' 10 2 = 0 :=
  Regs.status_extractLsb' fun k hk => by rw [Regs.status_getLsbD]; interval_cases k <;> rfl

theorem Regs.status_phase (r : Regs) : r.status.extractLsb' 12 4 = r.phase.code :=
  Regs.status_extractLsb' fun k hk => by rw [Regs.status_getLsbD]; interval_cases k <;> rfl

theorem Regs.status_bitIdx (r : Regs) : r.status.extractLsb' 16 6 = r.bitIdx :=
  Regs.status_extractLsb' fun k hk => by rw [Regs.status_getLsbD]; interval_cases k <;> rfl

theorem Regs.status_high (r : Regs) : r.status.extractLsb' 22 10 = 0 :=
  Regs.status_extractLsb' fun k hk => by rw [Regs.status_getLsbD]; interval_cases k <;> rfl

/-- STATUS[7] is VARIANT (10_state.md R33). -/
theorem Regs.status_variant (r : Regs) : r.status.getLsbD 7 = decide (r.variant = .modelB) := by
  rw [Regs.status_getLsbD]
  cases r.variant <;> rfl

theorem ErrCode.code_toNat_reserved (k : Fin 3) : (ErrCode.reserved k).code.toNat = 5 + k.val :=
  Nat.mod_eq_of_lt (by omega)

theorem Phase.code_toNat_unused (k : Fin 7) : (Phase.unused k).code.toNat = 9 + k.val :=
  Nat.mod_eq_of_lt (by omega)

/-- Settles O10: each field is read off STATUS by the bit it stands at. -/
theorem statusWordFields : Obligations.StatusWordFields := by
  refine ⟨fun s => ?fields, fun s strap hs => ?afterReset, fun s i haddr => ?write⟩
  case fields =>
    rw [busRead_status, Regs.status_err, Regs.status_phase]
    refine ⟨?busy, ?init, ?valid, ?tneg, ?err, s.regs.status_variant, ?ovr, ?ill, s.regs.status_gap, ?phase,
      s.regs.status_bitIdx, s.regs.status_high⟩
    case err =>
      cases s.regs.err with
      | reserved k => exact ErrCode.code_toNat_reserved k
      | _ => rfl
    case phase =>
      cases s.regs.phase with
      | unused k => exact Phase.code_toNat_unused k
      | _ => rfl
    case busy | init | valid | tneg | ovr | ill =>
      rw [Regs.status_getLsbD]
      simp [Regs.busy]
  case afterReset =>
    rw [busRead_status, hs]
    cases strap <;> rfl
  case write => exact step_withoutWrite (by simp [haddr]) s

/-! ### The data registers (10_state.md R46) -/

/-- CMD and the reserved addresses read 0 (20_memory.md R67). -/
theorem busRead_reserved {a : BitVec 3} (h : a = 0 ∨ 5 ≤ a.toNat) (s : State) : busRead a s = 0 := by
  have ha : a.toNat = 0 ∨ 5 ≤ a.toNat := h.imp_left (by rintro rfl; rfl)
  unfold busRead
  split
  case h_5 => rfl
  all_goals omega

/-- Settles O11: the 16-bit registers are extended into the word without a change of value. -/
theorem dataRegisterReads : Obligations.DataRegisterReads := by
  refine fun s => ⟨?hum, ?temp, rfl, fun a ha => busRead_reserved ha s, fun i haddr => ?write⟩
  case hum => exact BitVec.toNat_setWidth_of_le (by omega)
  case temp => exact BitVec.toInt_signExtend_of_le (by omega)
  case write =>
    refine step_withoutWrite (fun h => ?_) s
    rw [h] at haddr
    revert haddr
    decide

/-! ### VARIANT (10_state.md R33) -/

/-- Settles O53: neither half of a cycle writes VARIANT or reads the strap. -/
theorem variantTakesTheStrapOnlyInReset : Obligations.VariantTakesTheStrapOnlyInReset := by
  refine ⟨fun s t h => ?value, fun s i strap hr => ?strap, fun s => s.regs.status_variant⟩
  case value =>
    obtain ⟨-, -, rfl⟩ := step_cases h
    cases hr : s.inputs.rst with
    | true => simp [cycleRegs_reset hr]
    | false => simp [cycleRegs_noReset hr]
  case strap =>
    exact step_withInputs_congr_ports (i := { i with variant := strap }) (j := i) rfl (fun h => by simp [hr] at h)
      rfl rfl rfl rfl s

/-! ### The sticky flags (10_state.md R38, R39) -/

@[simp] theorem acceptBegin_ovr (ioErr : Bool) (r : Regs) : (acceptBegin ioErr r).ovr = r.ovr := by cases ioErr <;> rfl
@[simp] theorem acceptRead_ovr (ioErr : Bool) (r : Regs) : (acceptRead ioErr r).ovr = r.ovr := by cases ioErr <;> rfl

/-- A command sets OVR exactly if it is a BEGIN or READ in a busy phase, and never clears it. -/
theorem commandRegs_ovr (c : Instr) (ioErr : Bool) (r : Regs) :
    (commandRegs c ioErr r).ovr = true ↔ r.ovr = true ∨ (r.phase ≠ .idle ∧ (c = .begin ∨ c = .read)) := by
  cases c with
  | nop | c2f v | f2c v => simp [commandRegs]
  | begin | read => by_cases hi : r.phase = .idle <;> simp [commandRegs, hi]

/-- Settles O49: the sequencer leaves both flags to the host, whose write sets each by its own kind of word. -/
theorem stickyFlagsExactly : Obligations.StickyFlagsExactly := by
  intro s t h
  obtain ⟨-, -, rfl⟩ := step_cases h
  refine ⟨fun hr => by simp [cycleRegs_reset hr], fun hr => ?_⟩
  rw [afterCycle_regs, cycleRegs_noReset hr, sequencerCycle_ovr, sequencerCycle_ill]
  obtain ⟨hnone, hregs⟩ | ⟨c, hc⟩ | ⟨why, hwhy⟩ := host_cases hr
  · simp only [hregs, hnone, exists_false, or_self, and_false, or_false, and_self]
  · obtain ⟨-, -, -, hill⟩ := commandRegs_frame c s.inputs.ioErr s.regs
    rw [hostRegs_command hc, commandRegs_ovr, hill]
    simp only [hc.iff_eq]
    simp
  · rw [hostRegs_illegal hwhy]
    simp only [hwhy.iff_eq]
    simp

/-! ### CONV (10_state.md R42) -/

/-- The operand of a written conversion comes from ARG, so it fits. -/
theorem CommandWrite.wellFormed {i : Inputs} {c : Instr} (h : CommandWrite i (.command c)) : c.wellFormed = true := by
  obtain ⟨-, -, -, hdecode⟩ := h
  exact decode_wellFormed hdecode

/-- The range of CONV is that of C2F's results, which contains that of F2C's (44_temperature_scale.md R205). -/
theorem celsiusToFahrenheit_range {c : Int} (h : OperandFits c) :
    -58662 ≤ celsiusToFahrenheit c ∧ celsiusToFahrenheit c ≤ 59301 := by
  unfold celsiusToFahrenheit rdiv
  omega

theorem fahrenheitToCelsius_range {f : Int} (h : OperandFits f) :
    -58662 ≤ fahrenheitToCelsius f ∧ fahrenheitToCelsius f ≤ 59301 := by
  unfold fahrenheitToCelsius rdiv
  omega

theorem celsiusToFahrenheit_eq (c : Int) : celsiusToFahrenheit c = (18 * c + 5) / 10 + 320 := by
  unfold celsiusToFahrenheit rdiv
  omega

theorem fahrenheitToCelsius_eq (f : Int) : fahrenheitToCelsius f = (10 * (f - 320) + 9) / 18 := by
  unfold fahrenheitToCelsius rdiv
  omega

/-- A result in CONV's range is stored exactly. -/
theorem Regs.setConv_conv_toInt {v : Int} (h : -58662 ≤ v ∧ v ≤ 59301) (r : Regs) : (r.setConv v).conv.toInt = v := by
  rw [Regs.setConv_conv]
  exact BitVec.toInt_ofInt_eq_self (by omega) (by omega) (by omega)

@[simp] theorem acceptBegin_conv (ioErr : Bool) (r : Regs) : (acceptBegin ioErr r).conv = r.conv := by cases ioErr <;> rfl
@[simp] theorem acceptRead_conv (ioErr : Bool) (r : Regs) : (acceptRead ioErr r).conv = r.conv := by cases ioErr <;> rfl

/-- NOP, BEGIN and READ leave CONV as it is. -/
theorem commandRegs_conv_of_not_conversion {c : Instr} (hc : ∀ v, c ≠ .c2f v) (hf : ∀ v, c ≠ .f2c v) (ioErr : Bool)
    (r : Regs) : (commandRegs c ioErr r).conv = r.conv := by
  cases c with
  | c2f v => exact absurd rfl (hc v)
  | f2c v => exact absurd rfl (hf v)
  | nop => rfl
  | begin | read => by_cases hi : r.phase = .idle <;> simp [commandRegs, hi]

/-- Without reset CONV is what the host's write left. -/
theorem step_conv {s t : State} (h : step s = .next t) (hr : s.inputs.rst = false) :
    t.regs.conv = (hostRegs s.inputs s.regs).conv := by
  obtain ⟨-, -, rfl⟩ := step_cases h
  rw [afterCycle_regs, cycleRegs_noReset hr, sequencerCycle_conv]

theorem step_conv_of_c2f {s t : State} {c : Int} (h : step s = .next t)
    (hw : CommandWrite s.inputs (.command (.c2f c))) : t.regs.conv.toInt = celsiusToFahrenheit c := by
  rw [step_conv h hw.1, hostRegs_command hw]
  exact Regs.setConv_conv_toInt (celsiusToFahrenheit_range (of_decide_eq_true hw.wellFormed)) s.regs

theorem step_conv_of_f2c {s t : State} {f : Int} (h : step s = .next t)
    (hw : CommandWrite s.inputs (.command (.f2c f))) : t.regs.conv.toInt = fahrenheitToCelsius f := by
  rw [step_conv h hw.1, hostRegs_command hw]
  exact Regs.setConv_conv_toInt (fahrenheitToCelsius_range (of_decide_eq_true hw.wellFormed)) s.regs

theorem step_conv_of_reset {s t : State} (h : step s = .next t) (hr : s.inputs.rst = true) : t.regs.conv = 0 := by
  obtain ⟨-, -, rfl⟩ := step_cases h
  rw [afterCycle_regs, cycleRegs_reset hr, resetRegs_conv]

theorem step_conv_of_not_conversion {s t : State} (h : step s = .next t) (hr : s.inputs.rst = false)
    (hc : ∀ c, ¬CommandWrite s.inputs (.command (.c2f c))) (hf : ∀ f, ¬CommandWrite s.inputs (.command (.f2c f))) :
    t.regs.conv = s.regs.conv := by
  rw [step_conv h hr]
  obtain ⟨-, hregs⟩ | ⟨c, hw⟩ | ⟨why, hw⟩ := host_cases hr
  · rw [hregs]
  · rw [hostRegs_command hw]
    exact commandRegs_conv_of_not_conversion (fun v hv => hc v (hv ▸ hw)) (fun v hv => hf v (hv ▸ hw)) _ _
  · rw [hostRegs_illegal hw, Regs.flagIllegal_conv]

/-- Settles O50: a decoded operand fits ARG, so both conversions stay in the range that CONV stores exactly. -/
theorem convWrittenOnlyByConversions : Obligations.ConvWrittenOnlyByConversions := by
  intro s t h
  refine ⟨fun c hw => ?c2f, fun f hw => ?f2c, step_conv_of_reset h, step_conv_of_not_conversion h, fun hrange => ?range⟩
  case c2f => rw [step_conv_of_c2f h hw, celsiusToFahrenheit_eq]
  case f2c => rw [step_conv_of_f2c h hw, fahrenheitToCelsius_eq]
  case range =>
    cases hr : s.inputs.rst with
    | true =>
      rw [step_conv_of_reset h hr]
      decide
    | false =>
      by_cases hc : ∃ c, CommandWrite s.inputs (.command (.c2f c))
      · obtain ⟨c, hw⟩ := hc
        rw [step_conv_of_c2f h hw]
        exact celsiusToFahrenheit_range (of_decide_eq_true hw.wellFormed)
      by_cases hf : ∃ f, CommandWrite s.inputs (.command (.f2c f))
      · obtain ⟨f, hw⟩ := hf
        rw [step_conv_of_f2c h hw]
        exact fahrenheitToCelsius_range (of_decide_eq_true hw.wellFormed)
      rw [step_conv_of_not_conversion h hr (not_exists.mp hc) (not_exists.mp hf)]
      exact hrange

end Sys2Proof.Machine
end

section
/-! SUPPORT. The registers hidden from the host are clear in every reachable IDLE (10_state.md R43). -/

namespace Sys2Proof.Machine

/-- A property of the registers that the reset establishes and every cycle keeps holds in every reachable state. -/
theorem Reachable.regs_induction {P : Regs → Prop} (hreset : ∀ strap, P (resetRegs strap))
    (hcycle : ∀ p i r, P r → P (cycleRegs p i r)) {s : State} (h : Reachable s) : P s.regs := by
  induction h with
  | afterReset s strap _ hs => exact hs ▸ hreset strap
  | afterStep s t _ hst ih =>
    obtain ⟨-, -, rfl⟩ := step_cases hst
    exact hcycle s.params s.inputs s.regs ih

/-- What R43 needs along a run. BEGIN_WAIT returns to IDLE without writing BITIDX and FRAME, and VALIDATE without releasing the
line, so both are tracked in the phases before. -/
structure Regs.HiddenClear (r : Regs) : Prop where
  cntIdle : r.phase = .idle → r.cnt = 0
  captureClear : r.phase = .idle ∨ r.phase = .beginWait → r.bitIdx = 0 ∧ r.frame = 0
  lineReleased : r.phase ≠ .startLow → r.dqLow = false

namespace Regs.HiddenClear

theorem reset (strap : Variant) : (resetRegs strap).HiddenClear :=
  ⟨fun _ => rfl, fun _ => ⟨rfl, rfl⟩, fun _ => rfl⟩

theorem fail (code : ErrCode) (r : Regs) : (r.fail code).HiddenClear :=
  ⟨fun _ => rfl, fun _ => ⟨rfl, rfl⟩, fun _ => rfl⟩

/-- Outside IDLE the counter is free. -/
theorem setCnt {r : Regs} (h : r.HiddenClear) (hbusy : r.phase ≠ .idle) (p : Params) (n : Nat) :
    (r.setCnt p n).HiddenClear :=
  ⟨fun hi => absurd hi hbusy, h.captureClear, h.lineReleased⟩

/-- Outside IDLE and BEGIN_WAIT all it asks is a released line. -/
theorem of_reading {r : Regs} (hi : r.phase ≠ .idle) (hb : r.phase ≠ .beginWait)
    (hline : r.phase ≠ .startLow → r.dqLow = false) : r.HiddenClear :=
  ⟨fun h => absurd h hi, fun h => (h.elim hi hb).elim, hline⟩

/-- A measurement phase keeps it where the pulse's end does. -/
theorem measureCycle {r ended : Regs} (h : r.HiddenClear) (hbusy : r.phase ≠ .idle) (hended : ended.HiddenClear)
    (p : Params) (i : Inputs) (level : Bool) : (Machine.measureCycle p i level ended r).HiddenClear := by
  unfold Machine.measureCycle
  split
  · split
    · exact fail .ioError r
    · split
      · split
        · exact fail .timeout r
        · exact h.setCnt hbusy p _
      · exact hended
  · exact h

theorem beginWaitCycle {r : Regs} (h : r.HiddenClear) (hph : r.phase = .beginWait) (p : Params) (i : Inputs) :
    (Machine.beginWaitCycle p i r).HiddenClear := by
  unfold Machine.beginWaitCycle
  split
  · split
    · exact ⟨fun _ => rfl, fun _ => h.captureClear (.inr hph), fun _ => h.lineReleased (by simp [hph])⟩
    · exact h.setCnt (by simp [hph]) p _
  · exact h

theorem startLowCycle {r : Regs} (h : r.HiddenClear) (hph : r.phase = .startLow) (p : Params) (i : Inputs) :
    (Machine.startLowCycle p i r).HiddenClear := by
  unfold Machine.startLowCycle
  split
  · split
    · exact h.setCnt (by simp [hph]) p _
    · split
      · split
        · exact fail .ioError _
        · exact of_reading (by simp) (by simp) (by simp)
      · exact h
  · exact h

theorem startRelCycle {r : Regs} (h : r.HiddenClear) (hph : r.phase = .startRel) (p : Params) (i : Inputs) :
    (Machine.startRelCycle p i r).HiddenClear := by
  have hline : r.dqLow = false := h.lineReleased (by simp [hph])
  unfold Machine.startRelCycle
  split
  · split
    · exact of_reading (by simp) (by simp) (by simp [hline])
    · exact h.setCnt (by simp [hph]) p _
  · exact h

theorem dataPulseEnd {r : Regs} (hline : r.dqLow = false) (p : Params) : (Machine.dataPulseEnd p r).HiddenClear := by
  unfold Machine.dataPulseEnd
  split
  · exact of_reading (by simp) (by simp) (by simp [hline])
  · exact of_reading (by simp) (by simp) (by simp [hline])

theorem validateCycle {r : Regs} (hline : r.dqLow = false) : (Machine.validateCycle r).HiddenClear := by
  unfold Machine.validateCycle
  split
  · exact ⟨fun _ => rfl, fun _ => ⟨rfl, rfl⟩, fun _ => hline⟩
  · exact fail .checksum r

/-- Each phase's rule keeps it. -/
theorem sequencerCycle {r : Regs} (h : r.HiddenClear) (p : Params) (i : Inputs) :
    (Machine.sequencerCycle p i r.phase r).HiddenClear := by
  have hline := h.lineReleased
  cases hph : r.phase with
  | idle => exact h
  | beginWait => exact h.beginWaitCycle hph p i
  | startLow => exact h.startLowCycle hph p i
  | startRel => exact h.startRelCycle hph p i
  | ackLow | ackHigh | bitLow =>
    simp only [hph, ne_eq, reduceCtorEq, not_false_eq_true, forall_const] at hline
    exact h.measureCycle (by simp [hph]) (of_reading (by simp) (by simp) (by simp [hline])) p i _
  | bitHigh => exact h.measureCycle (by simp [hph]) (dataPulseEnd (hline (by simp [hph])) p) p i true
  | validate => exact validateCycle (hline (by simp [hph]))
  | unused k => exact fail r.err r

/-- It does not speak of the registers the host writes while busy. -/
theorem withHost {r : Regs} (h : r.HiddenClear) (ovr ill : Bool) (conv : Word) :
    Regs.HiddenClear { r with ovr := ovr, ill := ill, conv := conv } :=
  ⟨h.cntIdle, h.captureClear, h.lineReleased⟩

/-- In IDLE a command leaves the cleared registers or enters its first phase. -/
theorem commandRegs {r : Regs} (h : r.HiddenClear) (hidle : r.phase = .idle) (c : Instr) (ioErr : Bool) :
    (Machine.commandRegs c ioErr r).HiddenClear := by
  have hcnt := h.cntIdle hidle
  have hcapture := h.captureClear (.inl hidle)
  cases c with
  | nop => exact h
  | begin =>
    cases ioErr <;> constructor <;> simp [Machine.commandRegs, hidle, acceptBegin, hcnt, hcapture]
  | read =>
    cases ioErr <;> constructor <;> simp [Machine.commandRegs, hidle, acceptRead, hcnt, hcapture]
  | c2f v => exact h.withHost r.ovr r.ill _
  | f2c v => exact h.withHost r.ovr r.ill _

theorem hostRegs {r : Regs} (h : r.HiddenClear) (hidle : r.phase = .idle) (i : Inputs) :
    (Machine.hostRegs i r).HiddenClear := by
  unfold Machine.hostRegs
  split
  · exact h
  · split
    · exact h.commandRegs hidle _ _
    · exact h.withHost r.ovr true r.conv

/-- Every cycle keeps it: in IDLE the host acts alone, and in a busy phase the host's write is out of its sight. -/
theorem cycleRegs {r : Regs} (h : r.HiddenClear) (p : Params) (i : Inputs) : (Machine.cycleRegs p i r).HiddenClear := by
  cases hr : i.rst with
  | true => exact cycleRegs_reset hr p r ▸ reset i.variant
  | false =>
    rw [cycleRegs_noReset hr]
    by_cases hidle : r.phase = .idle
    · rw [hidle]
      exact h.hostRegs hidle i
    · rw [hostRegs_busy hidle, sequencerCycle_host]
      exact (h.sequencerCycle p i).withHost _ _ _

end Regs.HiddenClear

/-- Settles O41: IDLE is the case of `Regs.HiddenClear` in which it speaks of all four registers. -/
theorem reachableIdleIsClean : Obligations.ReachableIdleIsClean := by
  intro s hs hidle
  have h : s.regs.HiddenClear := hs.regs_induction Regs.HiddenClear.reset fun p i _ hr => hr.cycleRegs p i
  obtain ⟨hbits, hframe⟩ := h.captureClear (.inl hidle)
  exact ⟨h.cntIdle hidle, hbits, hframe, h.lineReleased (by simp [hidle])⟩

end Sys2Proof.Machine
end

section
/-! SUPPORT. The decoder and the encoder against each other, by the low half of a word, which selects the command (30_encoding.md
R89), and its ARG, which is the operand (R82). -/

namespace Sys2Proof

/-! ### The low half of a word -/

theorem rsvField_eq_extractLsb'_low (w : Word) : rsvField w = (w.extractLsb' 0 16).extractLsb' 3 13 :=
  (BitVec.extractLsb'_extractLsb'_of_le (by omega)).symm

theorem opField_eq_extractLsb'_low (w : Word) : opField w = (w.extractLsb' 0 16).extractLsb' 0 3 :=
  (BitVec.extractLsb'_extractLsb'_of_le (by omega)).symm

/-- With RSV 0, OP alone gives the low half. -/
theorem low_eq_of_fields {w : Word} {op : Nat} (hrsv : rsvField w = 0) (hop : (opField w).toNat = op) :
    w.extractLsb' 0 16 = (0 : BitVec 13) ++ BitVec.ofNat 3 op :=
  calc w.extractLsb' 0 16
    _ = rsvField w ++ opField w :=
      (BitVec.extractLsb'_append_extractLsb'_eq_extractLsb' (start₁ := 0) (len₁ := 3) (len₂ := 13) rfl).symm
    _ = (0 : BitVec 13) ++ BitVec.ofNat 3 op := by rw [hrsv, ← hop, BitVec.ofNat_toNat, BitVec.setWidth_eq]

/-- ARG and the low half make up the word. -/
theorem word_eq_argField_append_low (w : Word) : w = argField w ++ w.extractLsb' 0 16 :=
  calc w
    _ = w.extractLsb' 0 32 := BitVec.extractLsb'_eq_self.symm
    _ = argField w ++ w.extractLsb' 0 16 :=
      (BitVec.extractLsb'_append_extractLsb'_eq_extractLsb' (start₁ := 0) (len₁ := 16) (len₂ := 16) rfl).symm

theorem word_eq_iff_argField_eq {w w' : Word} (hlow : w.extractLsb' 0 16 = w'.extractLsb' 0 16) :
    w = w' ↔ argField w = argField w' := by
  refine ⟨congrArg argField, fun harg => ?_⟩
  rw [word_eq_argField_append_low w, word_eq_argField_append_low w', harg, hlow]

/-! ### The decoder (30_encoding.md R86) -/

/-- The command's operand, where it has one, is the one ARG holds (30_encoding.md R82). -/
def Instr.ReadsOperand (w : Word) : Instr → Prop
  | .nop | .begin | .read => True
  | .c2f v | .f2c v => v = argOperand w

/-- The low half selects the command and ARG is its operand. -/
theorem decode_eq_command_iff {w : Word} {i : Instr} :
    decode w = .command i ↔ w.extractLsb' 0 16 = opcodeMatch i ∧ i.ReadsOperand w := by
  constructor
  · intro h
    unfold decode at h
    split at h
    · cases h
    · rename_i hrsv
      split at h <;> cases h
      all_goals
        rename_i hop
        refine ⟨low_eq_of_fields (not_not.mp hrsv) hop, ?_⟩
        simp [Instr.ReadsOperand]
  · rintro ⟨hlow, hreads⟩
    have hrsv := rsvField_eq_extractLsb'_low w
    have hop := opField_eq_extractLsb'_low w
    rw [hlow] at hrsv hop
    cases i with
    | nop | begin | read => simp [decode, hrsv, hop, opcodeMatch]
    | c2f v | f2c v =>
      cases hreads
      simp [decode, hrsv, hop, opcodeMatch]

/-- 30_encoding.md R85. -/
theorem exists_decode_eq_command_iff {w : Word} :
    (∃ i, decode w = .command i) ↔ rsvField w = 0 ∧ (opField w).toNat ≤ 4 := by
  constructor
  · rintro ⟨i, h⟩
    rw [rsvField_eq_extractLsb'_low, opField_eq_extractLsb'_low, (decode_eq_command_iff.mp h).1]
    cases i <;> simp [opcodeMatch]
  · rintro ⟨hrsv, hop⟩
    interval_cases h : (opField w).toNat <;> simp [decode, hrsv, h]

theorem exists_decode_eq_illegal_iff {w : Word} :
    (∃ why, decode w = .illegal why) ↔ ¬∃ i, decode w = .command i := by
  cases decode w <;> simp

/-! ### The encoder (30_encoding.md R88) -/

theorem encode_low (i : Instr) : (encode i).extractLsb' 0 16 = opcodeMatch i := by
  cases i with
  | nop => exact Laws.OpcodeMatch.nop
  | begin => exact Laws.OpcodeMatch.begin
  | read => exact Laws.OpcodeMatch.read
  | c2f c => exact Laws.OpcodeMatch.c2f c
  | f2c f => exact Laws.OpcodeMatch.f2c f

theorem OperandFits.toInt_ofInt {v : Int} (h : OperandFits v) : (BitVec.ofInt 16 v).toInt = v :=
  BitVec.toInt_ofInt_eq_self (by omega) h.1 (Int.lt_add_one_of_le h.2)

/-- The operand of a word is the value of the 16 bits above its low half. -/
theorem argOperand_append (arg low : Half) : argOperand (arg ++ low) = arg.toInt := by
  rw [argOperand, BitVec.toInt_signExtend_of_le (by omega), argField, BitVec.extractLsb'_append_eq_left]

theorem encode_readsOperand {i : Instr} (h : i.wellFormed = true) : i.ReadsOperand (encode i) := by
  cases i with
  | nop | begin | read => trivial
  | c2f v | f2c v => exact ((argOperand_append _ _).trans (of_decide_eq_true h : OperandFits v).toInt_ofInt).symm

theorem decode_encode {i : Instr} (h : i.wellFormed = true) : decode (encode i) = .command i :=
  decode_eq_command_iff.mpr ⟨encode_low i, encode_readsOperand h⟩

/-- A word as a number: an operand modulo 2^16 above the low half. -/
theorem toNat_ofInt_append (v : Int) (low : Half) :
    ((BitVec.ofInt 16 v ++ low : Word).toNat : Int) = v % 2 ^ 16 * 2 ^ 16 + low.toNat := by
  rw [BitVec.toNat_append, ← Nat.shiftLeft_add_eq_or_of_lt low.isLt, Nat.shiftLeft_eq, BitVec.toNat_ofInt]
  omega

/-- Encoding a decoded word gives it back exactly when its ARG is the encoder's. -/
theorem encode_decoded_eq_iff {w : Word} {i : Instr} (h : decode w = .command i) :
    encode i = w ↔ argField (encode i) = argField w :=
  word_eq_iff_argField_eq ((encode_low i).trans (decode_eq_command_iff.mp h).1.symm)

theorem argField_encode_of_no_operand {i : Instr} (h : i = .nop ∨ i = .begin ∨ i = .read) : argField (encode i) = 0 := by
  rcases h with rfl | rfl | rfl <;> decide

/-- Settles O1: the encoder puts the decoder's match in the low half and, for an operand that fits, its bits in ARG; a decoded
word differs from the encoded command in ARG alone. -/
theorem decodeInvertsEncode : Obligations.DecodeInvertsEncode := by
  refine ⟨⟨rfl, rfl, rfl, fun v _ _ => ⟨toNat_ofInt_append v 3, toNat_ofInt_append v 4⟩⟩, fun _ => decode_encode,
    ?plainWords⟩
  case plainWords =>
    intro w i hi hdecode
    rw [encode_decoded_eq_iff hdecode, argField_encode_of_no_operand hi]
    exact eq_comm

/-- Settles O2: RSV and OP make up the low half, which selects the command, and a word that no command is read from is
illegal. -/
theorem decoderGivesSixVerdicts : Obligations.DecoderGivesSixVerdicts := by
  refine ⟨fun w => ⟨fun hrsv => ?reservedField, fun hrsv => ?commands, fun hop => ?reservedOpcode⟩,
    fun w w' hlow => ?argIndependent⟩
  case reservedField =>
    rw [exists_decode_eq_illegal_iff, exists_decode_eq_command_iff]
    exact fun h => hrsv h.1
  case commands =>
    refine ⟨?_, ?_, ?_, ?_, ?_⟩
    all_goals
      intro hop
      exact decode_eq_command_iff.mpr ⟨low_eq_of_fields hrsv (congrArg BitVec.toNat hop),
        by simp [Instr.ReadsOperand, argOperand, argField]⟩
  case reservedOpcode =>
    rw [exists_decode_eq_illegal_iff, exists_decode_eq_command_iff]
    exact fun h => Nat.not_succ_le_self 4 (hop.trans h.2)
  case argIndependent =>
    simp only [exists_decode_eq_command_iff, rsvField_eq_extractLsb'_low, opField_eq_extractLsb'_low, hlow]

end Sys2Proof
end

section
/-! SUPPORT. The host's writes that start no sequence, and how the step with such a write differs from the step without it: a write
of OVR, ILL or CONV alone commutes with the sequencer (40_host_commands.md R104 to R108). -/

namespace Sys2Proof.Machine

/-! ### The host's writes past the sequencer (20_memory.md R74) -/

theorem sequencerCycle_flagOverrun (p : Params) (i : Inputs) (ph : Phase) (r : Regs) :
    sequencerCycle p i ph r.flagOverrun = (sequencerCycle p i ph r).flagOverrun :=
  calc sequencerCycle p i ph r.flagOverrun
    _ = { sequencerCycle p i ph r with ovr := true, ill := r.ill, conv := r.conv } := sequencerCycle_host ..
    _ = (sequencerCycle p i ph r).flagOverrun := by simp [Regs.flagOverrun]

theorem sequencerCycle_flagIllegal (p : Params) (i : Inputs) (ph : Phase) (r : Regs) :
    sequencerCycle p i ph r.flagIllegal = (sequencerCycle p i ph r).flagIllegal :=
  calc sequencerCycle p i ph r.flagIllegal
    _ = { sequencerCycle p i ph r with ovr := r.ovr, ill := true, conv := r.conv } := sequencerCycle_host ..
    _ = (sequencerCycle p i ph r).flagIllegal := by simp [Regs.flagIllegal]

theorem sequencerCycle_setConv (p : Params) (i : Inputs) (ph : Phase) (r : Regs) (v : Int) :
    sequencerCycle p i ph (r.setConv v) = (sequencerCycle p i ph r).setConv v :=
  calc sequencerCycle p i ph (r.setConv v)
    _ = { sequencerCycle p i ph r with ovr := r.ovr, ill := r.ill, conv := BitVec.ofInt 32 v } := sequencerCycle_host ..
    _ = (sequencerCycle p i ph r).setConv v := by simp [Regs.setConv]

/-- Where the host's write commutes with the sequencer, the cycle with it is the cycle without it, and then the write. -/
theorem cycleRegs_write_of_commutes {i : Inputs} {r : Regs} {write : Regs → Regs} (p : Params) (hr : i.rst = false)
    (hhost : hostRegs i r = write r)
    (hcomm : ∀ r', sequencerCycle p i r.phase (write r') = write (sequencerCycle p i r.phase r')) :
    cycleRegs p i r = write (cycleRegs p (withoutWrite i) r) := by
  have hquiet : cycleRegs p (withoutWrite i) r = sequencerCycle p i r.phase r := by
    rw [cycleRegs_noReset (i := withoutWrite i) hr, hostRegs_of_quiet rfl]
    exact sequencerCycle_congr rfl rfl rfl p r.phase r
  rw [cycleRegs_noReset hr, hhost, hcomm, hquiet]

/-- The running command continues exactly as if such a write had not happened (40_host_commands.md R107). -/
theorem step_write_of_commutes {s : State} {i : Inputs} {write : Regs → Regs} (hl : s.params.Legal)
    (hu : s.regs.phase.used = true) (hr : i.rst = false) (hhost : hostRegs i s.regs = write s.regs)
    (hcomm : ∀ r, sequencerCycle s.params i s.regs.phase (write r) = write (sequencerCycle s.params i s.regs.phase r)) :
    ∃ t, step (s.withInputs (withoutWrite i)) = .next t ∧ step (s.withInputs i) = .next (t.withRegs (write t.regs)) := by
  refine ⟨_, step_eq (s := s.withInputs (withoutWrite i)) hl (.inr hu), ?_⟩
  rw [step_eq (s := s.withInputs i) hl (.inr hu)]
  have hregs := cycleRegs_write_of_commutes s.params hr hhost hcomm
  exact congrArg (fun r => Host.Outcome.next (afterCycle s r)) hregs

/-! ### NOP (40_host_commands.md R104) -/

/-- Settles O13: the low half alone selects NOP, and `exec` of NOP writes no register. -/
theorem nopDoesNothing : Obligations.NopDoesNothing :=
  ⟨fun s => exec_eq .nop s, fun _ hlow => decode_eq_command_iff.mpr ⟨hlow, trivial⟩⟩

/-! ### BEGIN and READ while busy (40_host_commands.md R107) -/

theorem commandRegs_busy_start {c : Instr} (hc : c = .begin ∨ c = .read) {r : Regs} (hbusy : r.phase ≠ .idle)
    (ioErr : Bool) : commandRegs c ioErr r = r.flagOverrun := by
  rcases hc with rfl | rfl <;> exact if_neg hbusy

theorem exec_busy_start {c : Instr} (hc : c = .begin ∨ c = .read) {s : State} (hbusy : s.regs.phase ≠ .idle) :
    exec c s = .next (s.withRegs s.regs.flagOverrun) := by
  rw [exec_eq, commandRegs_busy_start hc hbusy]

theorem step_busy_start {c : Instr} (hc : c = .begin ∨ c = .read) {s : State} {i : Inputs} (hl : s.params.Legal)
    (hu : s.regs.phase.used = true) (hbusy : s.regs.phase ≠ .idle) (hw : CommandWrite i (.command c)) :
    ∃ t, step (s.withInputs (withoutWrite i)) = .next t ∧
      step (s.withInputs i) = .next (t.withRegs t.regs.flagOverrun) :=
  step_write_of_commutes hl hu hw.1 ((hostRegs_command hw _).trans (commandRegs_busy_start hc hbusy _))
    (sequencerCycle_flagOverrun _ _ _)

/-- Settles O16: the refused write is `Regs.flagOverrun`, which commutes with the running command's cycle. -/
theorem busyBeginOrReadOnlySetsOverrun : Obligations.BusyBeginOrReadOnlySetsOverrun := by
  refine ⟨fun s hbusy => ⟨exec_busy_start (.inl rfl) hbusy, exec_busy_start (.inr rfl) hbusy⟩,
    fun s i hl hu hbusy hw => ?_⟩
  obtain hbegin | hread := hw
  · exact step_busy_start (.inl rfl) hl hu hbusy hbegin
  · exact step_busy_start (.inr rfl) hl hu hbusy hread

/-! ### Illegal words (40_host_commands.md R108) -/

/-- Settles O17: the write is `Regs.flagIllegal` in every phase, and commutes with the sequencer. -/
theorem illegalWordOnlySetsIll : Obligations.IllegalWordOnlySetsIll :=
  fun _ _ _ hl hu hw => step_write_of_commutes hl hu hw.1 (hostRegs_illegal hw _) (sequencerCycle_flagIllegal _ _ _)

/-! ### The conversions (40_host_commands.md R105, R106) -/

/-- A conversion written to CMD changes CONV in its cycle, and nothing else, whatever the sequencer does. -/
theorem step_setConv {s : State} {i : Inputs} {v : Int} (hl : s.params.Legal) (hu : s.regs.phase.used = true)
    (hr : i.rst = false) (hhost : hostRegs i s.regs = s.regs.setConv v) :
    ∃ t, step (s.withInputs (withoutWrite i)) = .next t ∧
      ∃ w, step (s.withInputs i) = .next { t with regs := { t.regs with conv := w } } := by
  obtain ⟨t, hquiet, hwrite⟩ := step_write_of_commutes hl hu hr (write := Regs.setConv v) hhost
    fun r => sequencerCycle_setConv _ _ _ r v
  exact ⟨t, hquiet, BitVec.ofInt 32 v, hwrite⟩

/-- Settles O18: C2F writes its result with `Regs.setConv`, where an operand of ARG's range stays exact. -/
theorem c2fWritesConv : Obligations.C2fWritesConv := by
  refine ⟨fun s c hfits => ⟨_, exec_eq (.c2f c) s, ?value⟩, fun w hlow => decode_eq_command_iff.mpr ⟨hlow, rfl⟩,
    fun s i c hl hu hw => step_setConv hl hu hw.1 (hostRegs_command hw s.regs), by decide, by decide⟩
  case value => exact Regs.setConv_conv_toInt (celsiusToFahrenheit_range hfits) s.regs

/-- Settles O19: F2C writes its result with `Regs.setConv`, where an operand of ARG's range stays exact. -/
theorem f2cWritesConv : Obligations.F2cWritesConv := by
  refine ⟨fun s f hfits => ⟨_, exec_eq (.f2c f) s, ?value⟩, fun w hlow => decode_eq_command_iff.mpr ⟨hlow, rfl⟩,
    fun s i f hl hu hw => step_setConv hl hu hw.1 (hostRegs_command hw s.regs), by decide, by decide⟩
  case value => exact Regs.setConv_conv_toInt (fahrenheitToCelsius_range hfits) s.regs

end Sys2Proof.Machine
end

section
/-! SUPPORT. A BEGIN from its accepting write to the end of its wait, as one function of the registers, and from its idempotence that
of the command (41_signalling.md R131, R137). -/

namespace Sys2Proof.Machine

/-! ### Ticks of a schedule -/

@[simp] theorem tickCount_nil : tickCount [] = 0 := rfl

@[simp] theorem tickCount_cons (i : Inputs) (ins : List Inputs) :
    tickCount (i :: ins) = tickCount ins + if i.tick then 1 else 0 := List.countP_cons

@[simp] theorem tickCount_append (ins ins' : List Inputs) : tickCount (ins ++ ins') = tickCount ins + tickCount ins' :=
  List.countP_append

/-- A schedule that ends on a tick has a last cycle, and that is a tick cycle. -/
theorem exists_append_of_endsOnTick {ins : List Inputs} (h : endsOnTick ins = true) :
    ∃ before last, ins = before ++ [last] ∧ last.tick = true := by
  obtain rfl | ⟨before, last, rfl⟩ := ins.eq_nil_or_concat'
  · cases h
  · exact ⟨before, last, rfl, by simpa [endsOnTick] using h⟩

/-! ### Cycles without a bus write -/

theorem cycleRegs_quiet {i : Inputs} (hq : QuietBus i) (p : Params) (r : Regs) :
    cycleRegs p i r = sequencerCycle p i r.phase r := by
  rw [cycleRegs_noReset hq.1, hostRegs_of_quiet hq.2]

/-- Without a write IDLE keeps every register (20_memory.md R70). -/
theorem runRegs_idle_quiet {ins : List Inputs} (hq : ∀ i ∈ ins, QuietBus i) (p : Params) {r : Regs} (hph : r.phase = .idle) :
    runRegs p ins r = r := by
  induction ins with
  | nil => rfl
  | cons i ins ih =>
    obtain ⟨hi, hins⟩ := List.forall_mem_cons.mp hq
    rw [runRegs_cons, cycleRegs_quiet hi, hph]
    exact ih hins

/-! ### BEGIN_WAIT (41_signalling.md R131) -/

theorem beginWaitCycle_noTick {i : Inputs} (ht : i.tick = false) (p : Params) (r : Regs) : beginWaitCycle p i r = r := by
  simp [beginWaitCycle, ht]

/-- A tick before the last is counted: CNT_W bits hold every count of the wait. -/
theorem beginWaitCycle_counts {i : Inputs} (ht : i.tick = true) {p : Params} {r : Regs} (hc : r.cnt + 1 < p.beginWaitTicks) :
    beginWaitCycle p i r = { r with cnt := r.cnt + 1 } := by
  have hfits : r.cnt + 1 < 2 ^ p.cntW := by
    obtain ⟨hwait, -⟩ := p.waits_le
    omega
  rw [beginWaitCycle, if_pos ht, if_neg hc.ne, Regs.setCnt_of_lt hfits]

theorem beginWaitCycle_ends {i : Inputs} (ht : i.tick = true) {p : Params} {r : Regs} (hc : r.cnt + 1 = p.beginWaitTicks) :
    beginWaitCycle p i r = { r.enter .idle 0 with init := true } := by
  rw [beginWaitCycle, if_pos ht, if_pos hc]

theorem cycleRegs_beginWait_quiet {i : Inputs} (hq : QuietBus i) (p : Params) {r : Regs} (hph : r.phase = .beginWait) :
    cycleRegs p i r = beginWaitCycle p i r := by
  rw [cycleRegs_quiet hq, hph, sequencerCycle]

/-- Short of BEGIN_WAIT_TICKS ticks the wait only counts. -/
theorem runRegs_beginWait_counts {ins : List Inputs} (hq : ∀ i ∈ ins, QuietBus i) {p : Params} {r : Regs}
    (hph : r.phase = .beginWait) (hc : r.cnt + tickCount ins < p.beginWaitTicks) :
    runRegs p ins r = { r with cnt := r.cnt + tickCount ins } := by
  induction ins generalizing r with
  | nil => rfl
  | cons i ins ih =>
    obtain ⟨hi, hins⟩ := List.forall_mem_cons.mp hq
    rw [runRegs_cons, cycleRegs_beginWait_quiet hi p hph]
    cases ht : i.tick with
    | false =>
      have hcount : tickCount (i :: ins) = tickCount ins := by simp [ht]
      rw [hcount] at hc ⊢
      rw [beginWaitCycle_noTick ht, ih hins hph hc]
    | true =>
      have hcount : r.cnt + tickCount (i :: ins) = r.cnt + 1 + tickCount ins := by
        simp only [tickCount_cons, ht, if_true]
        omega
      rw [hcount] at hc ⊢
      rw [beginWaitCycle_counts ht (by omega)]
      exact ih hins hph hc

/-- The wait is over at its last tick, with INIT set. -/
theorem runRegs_beginWait_ends {ins : List Inputs} (hq : ∀ i ∈ ins, QuietBus i) {p : Params} {r : Regs}
    (hph : r.phase = .beginWait) (hc : r.cnt + tickCount ins = p.beginWaitTicks) (hend : endsOnTick ins = true) :
    runRegs p ins r = { r.enter .idle 0 with init := true } := by
  obtain ⟨before, last, rfl, ht⟩ := exists_append_of_endsOnTick hend
  obtain ⟨hbefore, hlast⟩ := List.forall_mem_append.mp hq
  have hcount : r.cnt + tickCount before + 1 = p.beginWaitTicks := by
    simpa [ht, Nat.add_assoc] using hc
  rw [runRegs_append, runRegs_beginWait_counts hbefore hph (by omega)]
  refine (cycleRegs_beginWait_quiet (List.forall_mem_singleton.mp hlast) p ?phase).trans (beginWaitCycle_ends ht ?count)
  case phase => exact hph
  case count => exact hcount

/-! ### A whole BEGIN (41_signalling.md R137) -/

/-- The registers a BEGIN that succeeds leaves after its wait. -/
def Regs.begun (r : Regs) : Regs := { r.clearResults.pinHigh.enter .idle 0 with err := .none, init := true }

/-- Every register a BEGIN writes, it writes with a constant. -/
@[simp] theorem Regs.begun_begun (r : Regs) : r.begun.begun = r.begun := rfl

theorem cycleRegs_begin_accepted {c : Inputs} (hw : CommandWrite c (.command .begin)) (hpad : c.ioErr = false) (p : Params)
    {r : Regs} (hph : r.phase = .idle) :
    cycleRegs p c r = { r.clearResults.pinHigh.enter .beginWait 0 with err := .none } := by
  rw [cycleRegs_noReset hw.1, hostRegs_command hw, hph, hpad]
  exact if_pos hph

theorem runRegs_begin {c : Inputs} {w : List Inputs} (hw : CommandWrite c (.command .begin)) (hpad : c.ioErr = false)
    (hq : ∀ i ∈ w, QuietBus i) {p : Params} (hcount : tickCount w = p.beginWaitTicks) (hend : endsOnTick w = true) {r : Regs}
    (hph : r.phase = .idle) : runRegs p (c :: w) r = r.begun := by
  rw [runRegs_cons, cycleRegs_begin_accepted hw hpad p hph,
    runRegs_beginWait_ends hq rfl ((Nat.zero_add _).trans hcount) hend]
  rfl

/-- Settles O25: a BEGIN that succeeds takes the registers `r` to `r.begun`, the idle cycles keep them, and `Regs.begun` is idempotent. -/
theorem beginIsIdempotent : Obligations.BeginIsIdempotent := by
  intro s c₁ c₂ w₁ idle w₂ rest hl hph hw₁ hpad₁ hq₁ hcount₁ hend₁ hidle hw₂ hpad₂ hq₂ hcount₂ hend₂ hp
  have hused : s.regs.phase.used = true := by rw [hph]; rfl
  have hfirst : runRegs s.params (c₁ :: w₁) s.regs = s.regs.begun := runRegs_begin hw₁ hpad₁ hq₁ hcount₁ hend₁ hph
  have hboth : runRegs s.params ((c₁ :: w₁) ++ idle ++ (c₂ :: w₂)) s.regs = s.regs.begun := by
    rw [runRegs_append, runRegs_append, hfirst, runRegs_idle_quiet hidle s.params rfl,
      runRegs_begin hw₂ hpad₂ hq₂ hcount₂ hend₂ rfl, Regs.begun_begun]
  have hrun₁ := run_schedule (c₁ :: w₁) _ s hl hused hp
  have hrun₂ := run_schedule ((c₁ :: w₁) ++ idle ++ (c₂ :: w₂)) rest s hl hused (by rw [hp]; simp only [List.append_assoc])
  rw [hfirst] at hrun₁
  rw [hboth, List.length_append, List.length_append] at hrun₂
  exact ⟨_, _, hrun₁, hrun₂, rfl, rfl, rfl, rfl, rfl⟩

end Sys2Proof.Machine
end

section
/-! SUPPORT. Flipping a bit of FRAME changes one byte, and the checksum fixes each byte of a passing frame by the other four
(43_validate_decode.md R182, R189). -/

namespace Sys2Proof.Machine

/-- The checksum is an 8-bit adder chain that wraps around (43_validate_decode.md R182). -/
theorem checksumOk_iff_byte_sum (f : Frame) :
    checksumOk f = true ↔ frameByte f 0 + frameByte f 1 + frameByte f 2 + frameByte f 3 = frameByte f 4 := by
  rw [checksumOk, beq_iff_eq, ← BitVec.toNat_inj]
  simp only [BitVec.toNat_add]
  omega

/-- Two passing frames that agree in all bytes but byte `j` agree in that byte too. -/
theorem frameByte_eq_of_checksumOk {f g : Frame} (hf : checksumOk f = true) (hg : checksumOk g = true) {j : Nat} (hj : j < 5)
    (hothers : ∀ i < 5, i ≠ j → frameByte g i = frameByte f i) : frameByte g j = frameByte f j := by
  rw [checksumOk_iff_byte_sum, ← sub_eq_zero] at hf hg
  have hsums := hg.trans hf.symm
  interval_cases j <;> simpa [hothers] using hsums

/-- Bit `k` of FRAME stands in byte `4 - k / 8` and in no other (43_validate_decode.md R180). -/
theorem frameByte_twoPow_eq_zero_iff {k i : Nat} (hk : k < 40) (hi : i < 5) :
    frameByte (BitVec.twoPow 40 k) i = 0#8 ↔ i ≠ 4 - k / 8 := by
  have hbit (b : Nat) (hb : b < 8) :
      (frameByte (BitVec.twoPow 40 k) i).getLsbD b = decide (k = 32 - 8 * i + b) := by
    simp [frameByte, hb, hk]
  constructor
  · rintro hzero rfl
    have hset := hbit (k % 8) (Nat.mod_lt k (by decide))
    rw [hzero, BitVec.getLsbD_zero, eq_comm, decide_eq_false_iff_not] at hset
    omega
  · intro hne
    refine BitVec.eq_of_getLsbD_eq fun b hb => ?_
    rw [hbit b hb, BitVec.getLsbD_zero, decide_eq_false_iff_not]
    omega

theorem frameByte_flip_eq_iff (f : Frame) {k i : Nat} (hk : k < 40) (hi : i < 5) :
    frameByte (f ^^^ BitVec.twoPow 40 k) i = frameByte f i ↔ i ≠ 4 - k / 8 := by
  have hxor : frameByte (f ^^^ BitVec.twoPow 40 k) i = frameByte f i ^^^ frameByte (BitVec.twoPow 40 k) i :=
    BitVec.extractLsb'_xor
  rw [hxor]
  exact xor_left_eq_self_iff.trans (frameByte_twoPow_eq_zero_iff hk hi)

/-- Settles O37: the flip changes exactly one byte, which the checksum and the other four bytes already fix. -/
theorem singleBitFlipFailsTheChecksum : Obligations.SingleBitFlipFailsTheChecksum := by
  intro f k hk hf
  have hflipped : 4 - k / 8 < 5 := by omega
  rw [Bool.eq_false_iff]
  intro hg
  have hkept : frameByte (f ^^^ BitVec.twoPow 40 k) (4 - k / 8) = frameByte f (4 - k / 8) :=
    frameByte_eq_of_checksumOk hf hg hflipped fun i hi => (frameByte_flip_eq_iff f hk hi).mpr
  exact (frameByte_flip_eq_iff f hk hflipped).mp hkept rfl

end Sys2Proof.Machine
end

section
/-! SUPPORT. `rdiv` by its distance to n / d, which is below one half and determines it, and from that the rounding errors, the
ranges and the round trip of the conversions (44_temperature_scale.md R200, R204, R205, R206). -/

namespace Sys2Proof.Machine

/-! ### The rounded quotient (44_temperature_scale.md R200) -/

/-- The floor leaves a distance of at most one half, and one half itself would make the divisor even. -/
theorem rdiv_eq_iff {n d k : Int} (hd : 0 < d) (hodd : d % 2 = 1) : rdiv n d = k ↔ 2 * |d * k - n| < d := by
  have hscale : k * (2 * d) = 2 * (d * k) := by ring
  have habs : 2 * |d * k - n| = |2 * (d * k - n)| := by rw [abs_mul, abs_two]
  rw [rdiv, Int.ediv_eq_iff_of_pos (by omega), hscale, habs, abs_lt]
  omega

theorem rdiv_error_lt (n : Int) {d : Int} (hd : 0 < d) (hodd : d % 2 = 1) : 2 * |d * rdiv n d - n| < d :=
  (rdiv_eq_iff hd hodd).mp rfl

/-- Every other integer is at least one half away from n / d. -/
theorem rdiv_nearest (n k : Int) {d : Int} (hd : 0 < d) (hodd : d % 2 = 1) :
    2 * |d * rdiv n d - n| ≤ 2 * |d * k - n| := by
  by_cases hk : rdiv n d = k
  · rw [hk]
  · exact (rdiv_error_lt n hd hodd).le.trans (not_lt.mp (mt (rdiv_eq_iff hd hodd).mpr hk))

theorem rdiv_eq_floor (n : Int) {d : Int} (hd : 0 < d) :
    rdiv n d = ⌊((2 * n + d : Int) : ℚ) / ((2 * d : Int) : ℚ)⌋ := by
  rw [Int.floor_div_cast_of_nonneg (by omega), Int.floor_intCast, rdiv]

theorem rdiv_no_tie (n k : Int) {d : Int} (hodd : d % 2 = 1) : 2 * n ≠ d * (2 * k + 1) := by
  intro htie
  have hproduct : Odd (d * (2 * k + 1)) := (Int.odd_iff.mpr hodd).mul (odd_two_mul_add_one k)
  exact Int.not_odd_iff_even.mpr (even_two_mul n) (htie ▸ hproduct)

/-- Settles O55: the distance below one half determines `rdiv`, so no other integer is nearer. -/
theorem rdivIsTheNearestInteger : Obligations.RdivIsTheNearestInteger :=
  ⟨fun n _ hd hodd => ⟨rdiv_eq_floor n hd, fun k => rdiv_nearest n k hd hodd, rdiv_error_lt n hd hodd,
    fun k => rdiv_no_tie n k hodd⟩, by decide⟩

/-! ### Rounding errors (44_temperature_scale.md R204) -/

theorem celsiusToFahrenheit_error (c : Int) : |5 * celsiusToFahrenheit c - (9 * c + 1600)| ≤ 2 := by
  have hround := rdiv_error_lt (9 * c) (d := 5) (by decide) (by decide)
  have hoffset : 5 * celsiusToFahrenheit c - (9 * c + 1600) = 5 * rdiv (9 * c) 5 - 9 * c := by
    unfold celsiusToFahrenheit
    ring
  rw [hoffset]
  omega

theorem fahrenheitToCelsius_error (f : Int) : |9 * fahrenheitToCelsius f - 5 * (f - 320)| ≤ 4 := by
  have hround : 2 * |9 * fahrenheitToCelsius f - 5 * (f - 320)| < 9 := rdiv_error_lt _ (by decide) (by decide)
  omega

/-- The error is a multiple of 5 with the operand, and 0 is the only one within the bound. -/
theorem celsiusToFahrenheit_exact {c : Int} (h : c % 5 = 0) : 5 * celsiusToFahrenheit c = 9 * c + 1600 := by
  have herror := abs_le.mp (celsiusToFahrenheit_error c)
  omega

/-- Settles O56: the errors are integers after scaling by 5 and by 9, below one half of the scale. -/
theorem conversionErrorBounds : Obligations.ConversionErrorBounds :=
  ⟨fun _ _ h => celsiusToFahrenheit_exact h, fun c _ => celsiusToFahrenheit_error c, fun f _ => fahrenheitToCelsius_error f⟩

/-! ### Output ranges (44_temperature_scale.md R205) -/

theorem rdiv_mono {d : Int} (hd : 0 < d) : Monotone (rdiv · d) := fun m n h =>
  Int.ediv_le_ediv (by omega) (by omega)

theorem celsiusToFahrenheit_mono : Monotone celsiusToFahrenheit := fun a b h =>
  Int.add_le_add_right (rdiv_mono (by decide) (by omega)) 320

theorem fahrenheitToCelsius_mono : Monotone fahrenheitToCelsius := fun a b h =>
  rdiv_mono (by decide) (by omega)

theorem fahrenheitToCelsius_ends : fahrenheitToCelsius (-32768) = -18382 ∧ fahrenheitToCelsius 32767 = 18026 := by decide

/-- F2C's own range; `fahrenheitToCelsius_range` is CONV's. -/
theorem fahrenheitToCelsius_bounds {f : Int} (h : OperandFits f) :
    -18382 ≤ fahrenheitToCelsius f ∧ fahrenheitToCelsius f ≤ 18026 := by
  obtain ⟨hlow, hhigh⟩ := fahrenheitToCelsius_ends
  exact ⟨hlow ▸ fahrenheitToCelsius_mono h.1, hhigh ▸ fahrenheitToCelsius_mono h.2⟩

/-- A value in CONV's range survives two's complement of every width from 17 bits on. -/
theorem toInt_ofInt_of_convRange {v : Int} (h : -58662 ≤ v ∧ v ≤ 59301) {w : Nat} (hw : 17 ≤ w) :
    (BitVec.ofInt w v).toInt = v := by
  have hwidth : (2 : Int) ^ 16 ≤ 2 ^ (w - 1) := pow_le_pow_right₀ (by decide) (by omega)
  exact BitVec.toInt_ofInt_eq_self (by omega) (by omega) (by omega)

/-- Settles O57: the range of CONV, which contains both conversions, fits 17 bits; F2C is monotone between its ends. -/
theorem conversionRanges : Obligations.ConversionRanges := by
  refine ⟨fun c h => ?c2f, fun f h => ?f2c, by decide, fahrenheitToCelsius_ends⟩
  case c2f =>
    have hrange := celsiusToFahrenheit_range h
    exact ⟨hrange.1, hrange.2, toInt_ofInt_of_convRange hrange (by decide), toInt_ofInt_of_convRange hrange (by decide)⟩
  case f2c =>
    obtain ⟨hlow, hhigh⟩ := fahrenheitToCelsius_bounds h
    have hrange := fahrenheitToCelsius_range h
    exact ⟨hlow, hhigh, toInt_ofInt_of_convRange hrange (by decide), toInt_ofInt_of_convRange hrange (by decide)⟩

/-! ### The round trip (44_temperature_scale.md R206) -/

/-- C2F's scaled error of at most 2 is below one half of F2C's divisor 9, so F2C rounds it away. -/
theorem fahrenheitToCelsius_celsiusToFahrenheit (c : Int) : fahrenheitToCelsius (celsiusToFahrenheit c) = c := by
  have herror := celsiusToFahrenheit_error c
  have hnear : 2 * |9 * c - 5 * (celsiusToFahrenheit c - 320)| < 9 := by
    rw [show 9 * c - 5 * (celsiusToFahrenheit c - 320) = 9 * c + 1600 - 5 * celsiusToFahrenheit c by ring, abs_sub_comm]
    omega
  exact (rdiv_eq_iff (by decide) (by decide)).mpr hnear

/-- A result that fits ARG is an operand of F2C, whose range then holds the operand that the round trip gives back. -/
theorem celsiusToFahrenheit_fits_iff {c : Int} :
    OperandFits (celsiusToFahrenheit c) ↔ -18382 ≤ c ∧ c ≤ 18026 := by
  have hlow : celsiusToFahrenheit (-18382) = -32768 := by decide
  have hhigh : celsiusToFahrenheit 18026 = 32767 := by decide
  constructor
  · intro h
    simpa only [fahrenheitToCelsius_celsiusToFahrenheit] using fahrenheitToCelsius_bounds h
  · rintro ⟨hc, hc'⟩
    exact ⟨hlow ▸ celsiusToFahrenheit_mono hc, hhigh ▸ celsiusToFahrenheit_mono hc'⟩

/-- Settles O58: F2C rounds C2F's error away, so F2C's range bounds the operands whose result fits ARG. -/
theorem conversionRoundTrip : Obligations.ConversionRoundTrip :=
  ⟨fun c _ _ => fahrenheitToCelsius_celsiusToFahrenheit c, fun _ _ => celsiusToFahrenheit_fits_iff, by decide, by decide⟩

end Sys2Proof.Machine
end

section
/-! SUPPORT. Where a cycle reads the pad's answer: each half of it, outside the pin operations, is the same for both values of
`io_err` (60_exceptions.md R222); and the quiet cycle of IDLE (R233). -/

namespace Sys2Proof.Machine

/-! ### IDLE (60_exceptions.md R233) -/

/-- Settles O44: without a write the sequencer acts alone, and in IDLE it does nothing. -/
theorem idleIsQuiescent : Obligations.IdleIsQuiescent := by
  intro s hl hidle hq
  have hused : s.regs.phase.used = true := by rw [hidle]; rfl
  rw [step_quiet hl hused hq, hidle, sequencerCycle]

/-! ### The host's half of a cycle and the pad's answer -/

/-- Only an accepted BEGIN or READ reads it (40_host_commands.md R102, R103). -/
theorem commandRegs_ioErr_irrelevant {c : Instr} {r : Regs} (h : ¬(r.phase = .idle ∧ (c = .begin ∨ c = .read)))
    (b b' : Bool) : commandRegs c b r = commandRegs c b' r := by
  cases c with
  | nop | c2f v | f2c v => rfl
  | begin | read =>
    have hbusy : r.phase ≠ .idle := by simpa using h
    simp only [commandRegs, if_neg hbusy]

theorem hostRegs_ioErr_irrelevant {i : Inputs} {r : Regs} (hr : i.rst = false)
    (h : ¬(r.phase = .idle ∧ (CommandWrite i (.command .begin) ∨ CommandWrite i (.command .read)))) (b : Bool) :
    hostRegs { i with ioErr := b } r = hostRegs i r := by
  have hword : commandWord { i with ioErr := b } = commandWord i := rfl
  unfold hostRegs
  rw [hword]
  cases hw : commandWord i with
  | none => rfl
  | some w =>
    obtain ⟨hwr, haddr, rfl⟩ := commandWord_eq_some.mp hw
    dsimp only
    cases hv : decode i.busWdata with
    | illegal why => rfl
    | command c =>
      have hwrite : CommandWrite i (.command c) := ⟨hr, hwr, haddr, hv⟩
      exact commandRegs_ioErr_irrelevant
        (fun ⟨hidle, hc⟩ => h ⟨hidle, hc.imp (by rintro rfl; exact hwrite) (by rintro rfl; exact hwrite)⟩) b i.ioErr

/-! ### The sequencer's half of a cycle and the pad's answer -/

theorem waitLength_startLow (p : Params) (v : Variant) : waitLength p v .startLow = some (p.hold v) := by
  cases v <;> rfl

/-- START_LOW drives the pin in the tick that ends the hold alone (41_signalling.md R133). -/
theorem startLowCycle_ioErr_irrelevant {p : Params} {i : Inputs} {r : Regs}
    (h : ¬(i.tick = true ∧ r.cnt + 1 = p.hold r.variant)) (b : Bool) : startLowCycle p { i with ioErr := b } r = startLowCycle p i r := by
  simp only [startLowCycle]
  cases ht : i.tick with
  | false => rfl
  | true => simp only [if_neg fun hend => h ⟨ht, hend⟩]

theorem measureCycle_noTick {i : Inputs} (ht : i.tick = false) (p : Params) (level : Bool) (ended r : Regs) :
    measureCycle p i level ended r = r := by
  simp [measureCycle, ht]

/-- Each phase's rule, in a cycle without a pin operation. -/
theorem sequencerCycle_ioErr_irrelevant {p : Params} {i : Inputs} {r : Regs} (h : ¬PinOperation p r i) (b : Bool) :
    sequencerCycle p { i with ioErr := b } r.phase r = sequencerCycle p i r.phase r := by
  simp only [PinOperation, not_or] at h
  obtain ⟨-, hhold, hsample⟩ := h
  cases hph : r.phase with
  | idle | beginWait | startRel | validate | unused k => rfl
  | startLow =>
    refine startLowCycle_ioErr_irrelevant (fun ⟨ht, hend⟩ => hhold ⟨hph, ht, ?_⟩) b
    rw [waitLength_startLow, hend]
  | ackLow | ackHigh | bitLow | bitHigh =>
    have ht : i.tick = false := by simpa [hph, expectedLevel] using hsample
    simp only [sequencerCycle, measureCycle_noTick ht, measureCycle_noTick (i := { i with ioErr := b }) ht]

/-! ### The whole cycle (60_exceptions.md R222) -/

/-- In a busy phase the host's write is out of the sequencer's sight (20_memory.md R74). -/
theorem sequencerCycle_hostRegs_busy {r : Regs} (hbusy : r.phase ≠ .idle) (p : Params) (i j : Inputs) :
    sequencerCycle p i r.phase (hostRegs j r) =
      { sequencerCycle p i r.phase r with
        ovr := (hostRegs j r).ovr, ill := (hostRegs j r).ill, conv := (hostRegs j r).conv } :=
  (congrArg (sequencerCycle p i r.phase) (hostRegs_busy hbusy j)).trans (sequencerCycle_host ..)

/-- In IDLE the host acts alone, and in a busy phase the sequencer does not see what it writes. -/
theorem cycleRegs_ioErr_irrelevant {p : Params} {i : Inputs} {r : Regs} (h : ¬PinOperation p r i) (b : Bool) :
    cycleRegs p { i with ioErr := b } r = cycleRegs p i r := by
  obtain hr | hr := Bool.eq_false_or_eq_true i.rst
  · rw [cycleRegs_reset hr, cycleRegs_reset (i := { i with ioErr := b }) hr]
  · rw [cycleRegs_noReset hr, cycleRegs_noReset (i := { i with ioErr := b }) hr,
      hostRegs_ioErr_irrelevant hr (fun haccept => h (.inl haccept)) b]
    by_cases hidle : r.phase = .idle
    · rw [hidle]
      rfl
    · rw [sequencerCycle_hostRegs_busy hidle, sequencerCycle_hostRegs_busy hidle, sequencerCycle_ioErr_irrelevant h b]

/-- Settles O51: neither half of a cycle without a pin operation reads the pad's answer. -/
theorem ioErrReadOnlyAtPinOperations : Obligations.IoErrReadOnlyAtPinOperations := fun _ i b h =>
  step_withInputs_congr (i := { i with ioErr := b }) (j := i) rfl (cycleRegs_ioErr_irrelevant h b)

end Sys2Proof.Machine
end

section
/-! SUPPORT. The step of a reset cycle, and the statement on the registers it writes (70_reset_and_hazards.md R250, R251). -/

namespace Sys2Proof.Machine

/-- The step of a reset cycle: PHASE may be unused, and of the ports only the strap is read. -/
theorem step_reset {s : State} (hl : s.params.Legal) (hr : s.inputs.rst = true) :
    step s = .next (afterCycle s (resetRegs s.inputs.variant)) := by
  rw [step_eq hl (.inl hr), cycleRegs_reset hr]

/-- Settles O7: the registers after a reset cycle are `resetRegs` of the strap, whose fields are the column of
70_reset_and_hazards.md R251. -/
theorem resetCycleWritesEveryRegister : Obligations.ResetCycleWritesEveryRegister := fun _ hl hr =>
  step_reset hl hr

end Sys2Proof.Machine
end

section
/-! SUPPORT. The sequencer's rule of each phase, one equation per branch (41_signalling.md R132, R133, R135; 42_capture.md R151 to
R154; 43_validate_decode.md R181), and the statements on a single cycle of each phase. -/

namespace Sys2Proof.Machine

/-! ### Which phases wait and which measure -/

theorem Phase.used_of_waitLength {p : Params} {v : Variant} {ph : Phase} {n : Nat} (h : waitLength p v ph = some n) :
    ph.used = true := by
  cases ph with
  | unused k => cases h
  | _ => rfl

theorem Phase.ne_of_waitLength {p : Params} {v : Variant} {ph ph' : Phase} {n : Nat} (h : waitLength p v ph = some n)
    (hnone : waitLength p v ph' = none) : ph ≠ ph' := by
  rintro rfl
  rw [h] at hnone
  cases hnone

theorem Phase.used_of_expectedLevel {ph : Phase} {level : Bool} (h : expectedLevel ph = some level) : ph.used = true := by
  cases ph with
  | unused k => cases h
  | _ => rfl

theorem Phase.ne_of_expectedLevel {ph ph' : Phase} {level : Bool} (h : expectedLevel ph = some level)
    (hnone : expectedLevel ph' = none) : ph ≠ ph' := by
  rintro rfl
  rw [h] at hnone
  cases hnone

/-! ### The wait phases (41_signalling.md) -/

theorem waitLength_lt {p : Params} {v : Variant} {ph : Phase} {n : Nat} (h : waitLength p v ph = some n) :
    n < 2 ^ p.cntW := by
  obtain ⟨hbegin, -, -, hrelease⟩ := p.waits_le
  cases ph with
  | beginWait => cases h; exact hbegin
  | startRel => cases h; exact hrelease
  | startLow =>
    rw [waitLength_startLow] at h
    cases h
    exact p.hold_le v
  | _ => cases h

/-- Outside VALIDATE a phase acts on ticks alone. -/
theorem sequencerCycle_noTick {i : Inputs} (ht : i.tick = false) {ph : Phase} (hu : ph.used = true) (hv : ph ≠ .validate)
    (p : Params) (r : Regs) : sequencerCycle p i ph r = r := by
  cases ph with
  | idle => rfl
  | beginWait => exact beginWaitCycle_noTick ht p r
  | startLow => simp [sequencerCycle, startLowCycle, ht]
  | startRel => simp [sequencerCycle, startRelCycle, ht]
  | ackLow | ackHigh | bitLow | bitHigh => exact measureCycle_noTick ht p _ _ r
  | validate => exact absurd rfl hv
  | unused k => cases hu

/-- A tick before the last of a wait is counted. -/
theorem sequencerCycle_waits {i : Inputs} (ht : i.tick = true) {p : Params} {ph : Phase} {r : Regs} {n : Nat}
    (hwait : waitLength p r.variant ph = some n) (hc : r.cnt + 1 < n) :
    sequencerCycle p i ph r = { r with cnt := r.cnt + 1 } := by
  have hfits := Regs.setCnt_of_lt (hc.trans (waitLength_lt hwait)) r
  cases ph with
  | beginWait => cases hwait; exact beginWaitCycle_counts ht hc
  | startLow =>
    rw [waitLength_startLow] at hwait
    cases hwait
    simp only [sequencerCycle, startLowCycle, ht, hc, if_true, hfits]
  | startRel =>
    cases hwait
    simp only [sequencerCycle, startRelCycle, ht, hc.ne, if_true, if_false, hfits]
  | _ => cases hwait

theorem startLowCycle_releases {i : Inputs} (ht : i.tick = true) (hpad : i.ioErr = false) {p : Params} {r : Regs}
    (hc : r.cnt + 1 = p.hold r.variant) : startLowCycle p i r = r.pinHigh.enter .startRel 0 := by
  simp [startLowCycle, ht, hc, hpad]

theorem startLowCycle_fails {i : Inputs} (ht : i.tick = true) (hpad : i.ioErr = true) {p : Params} {r : Regs}
    (hc : r.cnt + 1 = p.hold r.variant) : startLowCycle p i r = r.fail .ioError := by
  simp only [startLowCycle, ht, hc, hpad, lt_irrefl, if_true, if_false]
  rfl

theorem startRelCycle_ends {i : Inputs} (ht : i.tick = true) {p : Params} {r : Regs} (hc : r.cnt + 1 = p.releaseTicks) :
    startRelCycle p i r = r.enter .ackLow 0 := by
  simp [startRelCycle, ht, hc]

/-! ### The measurement phases (42_capture.md) -/

/-- The registers after the sample that ends the pulse being measured (42_capture.md R153, R154). -/
def pulseEnd (p : Params) (r : Regs) : Regs :=
  match r.phase with
  | .ackLow => r.enter .ackHigh 1
  | .ackHigh => r.enter .bitLow 1
  | .bitLow => r.enter .bitHigh 1
  | .bitHigh => dataPulseEnd p r
  | _ => r

/-- The four measurement phases differ in the expected level and in the pulse's end alone. -/
theorem sequencerCycle_measures {p : Params} {r : Regs} {level : Bool} (h : expectedLevel r.phase = some level) (i : Inputs) :
    sequencerCycle p i r.phase r = measureCycle p i level (pulseEnd p r) r := by
  unfold pulseEnd
  cases hph : r.phase <;> rw [hph] at h <;> cases h <;> rfl

theorem measureCycle_ioErr {i : Inputs} (ht : i.tick = true) (hpad : i.ioErr = true) (p : Params) (level : Bool)
    (ended r : Regs) : measureCycle p i level ended r = r.fail .ioError := by
  simp [measureCycle, ht, hpad]

theorem measureCycle_timeout {i : Inputs} (ht : i.tick = true) (hpad : i.ioErr = false) {p : Params} {r : Regs}
    (hc : r.cnt + 1 > p.maxCycles) (ended : Regs) : measureCycle p i i.dqIn ended r = r.fail .timeout := by
  simp [measureCycle, ht, hpad, hc, pinSample]

/-- A width up to MAX_CYCLES is counted exactly: CNT_W has room for one more. -/
theorem measureCycle_counts {i : Inputs} (ht : i.tick = true) (hpad : i.ioErr = false) {p : Params} {r : Regs}
    (hc : r.cnt + 1 ≤ p.maxCycles) (ended : Regs) : measureCycle p i i.dqIn ended r = { r with cnt := r.cnt + 1 } := by
  have hspan := p.maxCycles_add_two_le
  have hfits := Regs.setCnt_of_lt (p := p) (n := r.cnt + 1) (by omega) r
  simp [measureCycle, ht, hpad, Nat.not_lt.mpr hc, pinSample, hfits]

theorem measureCycle_ends {i : Inputs} (ht : i.tick = true) (hpad : i.ioErr = false) {level : Bool} (hline : i.dqIn ≠ level)
    (p : Params) (ended r : Regs) : measureCycle p i level ended r = ended := by
  simp [measureCycle, ht, hpad, pinSample, hline]

theorem bitIdx_succ_eq_forty_iff (b : BitVec 6) : b + 1 = 40 ↔ b.toNat + 1 = 40 := by
  bv_omega

theorem dataPulseEnd_last {r : Regs} (h : r.bitIdx.toNat + 1 = 40) (p : Params) :
    dataPulseEnd p r = (r.shiftIn (dataBit p r.cnt)).enter .validate 0 :=
  if_pos ((bitIdx_succ_eq_forty_iff _).mpr h)

theorem dataPulseEnd_more {r : Regs} (h : r.bitIdx.toNat + 1 ≠ 40) (p : Params) :
    dataPulseEnd p r = (r.shiftIn (dataBit p r.cnt)).enter .bitLow 1 :=
  if_neg (mt (bitIdx_succ_eq_forty_iff _).mp h)

/-! ### VALIDATE (43_validate_decode.md) -/

theorem frameByte_toNat_eq_byteValue (f : Frame) (k : Nat) : (frameByte f k).toNat = byteValue f k := frameByte_toNat f k

theorem byteValue_lt (f : Frame) (k : Nat) : byteValue f k < 256 := Nat.mod_lt _ (by decide)

theorem checksumOk_iff (f : Frame) : checksumOk f = true ↔ ChecksumHolds f := by
  simp only [checksumOk, beq_iff_eq, frameByte_toNat_eq_byteValue]

/-- The registers after a validation that passes (43_validate_decode.md R181). -/
def Regs.validated (r : Regs) : Regs :=
  { r with
    hum := (decodeReading r.variant r.frame).hum, temp := (decodeReading r.variant r.frame).temp,
    tneg := (decodeReading r.variant r.frame).tneg, valid := true, frame := 0, bitIdx := 0, cnt := 0, phase := .idle }

theorem validateCycle_passes {r : Regs} (h : ChecksumHolds r.frame) : validateCycle r = r.validated :=
  if_pos ((checksumOk_iff r.frame).mpr h)

theorem validateCycle_fails {r : Regs} (h : ¬ChecksumHolds r.frame) : validateCycle r = r.fail .checksum :=
  if_neg (mt (checksumOk_iff r.frame).mp h)

/-! ### One cycle of a wait phase -/

/-- The rule that acts alone in a quiet cycle gives the step. -/
theorem step_quiet_of_eq {s : State} {r : Regs} (hl : s.params.Legal) (hu : s.regs.phase.used = true) (hq : QuietBus s.inputs)
    (h : sequencerCycle s.params s.inputs s.regs.phase s.regs = r) : step s = .next (afterCycle s r) :=
  h ▸ step_quiet hl hu hq

theorem step_wait_noTick {s : State} {n : Nat} (hl : s.params.Legal) (hq : QuietBus s.inputs) (ht : s.inputs.tick = false)
    (hwait : waitLength s.params s.regs.variant s.regs.phase = some n) : step s = .next (afterCycle s s.regs) :=
  have hu := Phase.used_of_waitLength hwait
  step_quiet_of_eq hl hu hq (sequencerCycle_noTick ht hu (Phase.ne_of_waitLength hwait rfl) _ _)

theorem step_wait_counts {s : State} {n : Nat} (hl : s.params.Legal) (hq : QuietBus s.inputs) (ht : s.inputs.tick = true)
    (hwait : waitLength s.params s.regs.variant s.regs.phase = some n) (hc : s.regs.cnt + 1 < n) :
    step s = .next (afterCycle s { s.regs with cnt := s.regs.cnt + 1 }) :=
  step_quiet_of_eq hl (Phase.used_of_waitLength hwait) hq (sequencerCycle_waits ht hwait hc)

end Sys2Proof.Machine

namespace Sys2Proof

open Sys2Proof.Machine

/-- Settles O21: BEGIN_WAIT is a wait phase, and its last tick sets INIT. -/
theorem beginWaitCycle : Obligations.BeginWaitCycle := by
  intro s hl hq hph _
  have hwait : waitLength s.params s.regs.variant s.regs.phase = some s.params.beginWaitTicks := by rw [hph]; rfl
  refine ⟨fun ht => step_wait_noTick hl hq ht hwait, fun ht hc => ?last, fun ht hc => step_wait_counts hl hq ht hwait hc⟩
  case last =>
    refine step_quiet_of_eq hl (Phase.used_of_waitLength hwait) hq ?_
    rw [hph]
    exact beginWaitCycle_ends ht hc

/-- Settles O22: START_LOW is a wait phase of the variant's HOLD, and its last tick drives the pin. -/
theorem startLowCycle : Obligations.StartLowCycle := by
  intro s hold hl hq hph hA hB _
  have hhold : hold = s.params.hold s.regs.variant := by
    cases hv : s.regs.variant with
    | modelA => exact hA hv
    | modelB => exact hB hv
  subst hhold
  have hwait : waitLength s.params s.regs.variant s.regs.phase = some (s.params.hold s.regs.variant) := by
    rw [hph, waitLength_startLow]
  have hu := Phase.used_of_waitLength hwait
  refine ⟨fun ht => step_wait_noTick hl hq ht hwait, fun ht hc => step_wait_counts hl hq ht hwait hc,
    fun ht hc hpad => ?releases, fun ht hc hpad => ?fails⟩
  all_goals
    refine step_quiet_of_eq hl hu hq ?_
    rw [hph]
  case releases => exact startLowCycle_releases ht hpad hc
  case fails => exact startLowCycle_fails ht hpad hc

/-- Settles O23: START_REL is a wait phase that ends in ACK_LOW. -/
theorem startRelCycle : Obligations.StartRelCycle := by
  intro s hl hq hph _
  have hwait : waitLength s.params s.regs.variant s.regs.phase = some s.params.releaseTicks := by rw [hph]; rfl
  refine ⟨fun ht => step_wait_noTick hl hq ht hwait, fun ht hc => ?last, fun ht hc => step_wait_counts hl hq ht hwait hc⟩
  case last =>
    refine step_quiet_of_eq hl (Phase.used_of_waitLength hwait) hq ?_
    rw [hph]
    exact startRelCycle_ends ht hc

end Sys2Proof

namespace Sys2Proof.Machine

/-! ### One cycle of a measurement phase -/

/-- Settles O26: the branches of the one rule of the measurement phases, the pad's answer first. -/
theorem measurementCountsOrFails : Obligations.MeasurementCountsOrFails := by
  intro s level hl hq hlevel ht
  have hstep {r : Regs} (h : measureCycle s.params s.inputs level (pulseEnd s.params s.regs) s.regs = r) :
      step s = .next (afterCycle s r) :=
    step_quiet_of_eq hl (Phase.used_of_expectedLevel hlevel) hq ((sequencerCycle_measures hlevel _).trans h)
  refine ⟨fun hpad => hstep (measureCycle_ioErr ht hpad ..), fun hpad hline hc => hstep ?timeout,
    fun hpad hline hc => hstep ?counts⟩
  case timeout => exact hline ▸ measureCycle_timeout ht hpad hc _
  case counts => exact hline ▸ measureCycle_counts ht hpad hc _

/-- In a quiet cycle a sample of the other level ends the pulse. -/
theorem step_pulseEnd {s : State} (hl : s.params.Legal) (hq : QuietBus s.inputs) (ht : s.inputs.tick = true)
    (hpad : s.inputs.ioErr = false) (hlevel : expectedLevel s.regs.phase = some (!s.inputs.dqIn)) :
    step s = .next (afterCycle s (pulseEnd s.params s.regs)) :=
  step_quiet_of_eq hl (Phase.used_of_expectedLevel hlevel) hq
    ((sequencerCycle_measures hlevel _).trans (measureCycle_ends ht hpad (by simp) ..))

/-- Settles O27: the pulse's end of each phase but BIT_HIGH enters the next phase with CNT at 1. -/
theorem endingSampleStartsTheNextPulse : Obligations.EndingSampleStartsTheNextPulse := by
  intro s hl hq ht hpad
  refine ⟨fun hph hline => ?_, fun hph hline => ?_, fun hph hline => ?_⟩
  all_goals
    have hstep := step_pulseEnd hl hq ht hpad (by rw [hph, hline]; rfl)
    rw [pulseEnd, hph] at hstep
    exact hstep

/-- Settles O28: the pulse's end of BIT_HIGH shifts its bit in, and the count of bits chooses the next phase. -/
theorem dataPulseEndShiftsItsBitIn : Obligations.DataPulseEndShiftsItsBitIn := by
  intro s hl hq ht hpad hph hline
  have hstep := step_pulseEnd hl hq ht hpad (by rw [hph, hline]; rfl)
  rw [pulseEnd, hph] at hstep
  refine ⟨(s.regs.shiftIn (dataBit s.params s.regs.cnt)).frame, ?bit, fun k hk => ?shifted, fun hlast => ?last,
    fun hmore => ?more⟩
  case bit =>
    rw [Regs.shiftIn_frame, shiftIn_getLsbD]
    rfl
  case shifted =>
    rw [Regs.shiftIn_frame, shiftIn_getLsbD]
    simp [hk]
  case last =>
    have hcount : s.regs.bitIdx + 1 = 40 := (bitIdx_succ_eq_forty_iff _).mpr hlast
    rw [dataPulseEnd_last hlast] at hstep
    simp only [Regs.enter, Regs.shiftIn, hcount] at hstep
    exact hstep
  case more =>
    rw [dataPulseEnd_more hmore.ne] at hstep
    exact hstep

/-! ### VALIDATE -/

theorem step_validate {s : State} {r : Regs} (hl : s.params.Legal) (hq : QuietBus s.inputs) (hph : s.regs.phase = .validate)
    (h : validateCycle s.regs = r) : step s = .next (afterCycle s r) := by
  refine step_quiet_of_eq hl ?_ hq ?_ <;> rw [hph]
  exacts [rfl, h]

/-- Settles O34: a failing checksum is the one error of VALIDATE, and `Fail` leaves the cleanup state. -/
theorem badChecksumEndsTheRead : Obligations.BadChecksumEndsTheRead := fun _ hl hq hph hbad =>
  step_validate hl hq hph (validateCycle_fails hbad)

/-- A Model A reading is exact: its values fit 15 bits (43_validate_decode.md R184). -/
theorem decodeModelA_hum (f : Frame) : (decodeModelA f).hum.toNat = byteValue f 0 * 10 + byteValue f 1 := by
  have h0 := byteValue_lt f 0
  have h1 := byteValue_lt f 1
  simp only [decodeModelA, frameByte_toNat_eq_byteValue, BitVec.toNat_ofNat]
  omega

theorem decodeModelA_temp (f : Frame) : (decodeModelA f).temp.toInt = byteValue f 2 * 10 + byteValue f 3 := by
  have h2 := byteValue_lt f 2
  have h3 := byteValue_lt f 3
  have hvalue : (decodeModelA f).temp.toNat = byteValue f 2 * 10 + byteValue f 3 := by
    simp only [decodeModelA, frameByte_toNat_eq_byteValue, BitVec.toNat_ofNat]
    omega
  rw [BitVec.toInt_eq_toNat_of_lt (by omega), hvalue]
  rfl

theorem decodeModelB_hum (f : Frame) : (decodeModelB f).hum.toNat = byteValue f 0 * 256 + byteValue f 1 := by
  have h0 := byteValue_lt f 0
  have h1 := byteValue_lt f 1
  simp only [decodeModelB, frameByte_toNat_eq_byteValue, BitVec.toNat_ofNat]
  omega

/-- The sign is bit 7 of b2 (43_validate_decode.md R185). -/
theorem decodeModelB_tneg (f : Frame) : (decodeModelB f).tneg = decide (128 ≤ byteValue f 2) := by
  rw [← frameByte_toNat_eq_byteValue]
  exact BitVec.msb_eq_decide (frameByte f 2)

/-- The magnitude is the low 15 bits of b2 and b3 (43_validate_decode.md R185). -/
theorem magnitude_eq (f : Frame) : magnitude f = byteValue f 2 % 128 * 256 + byteValue f 3 := by
  rw [magnitude, ← frameByte_toNat_eq_byteValue, ← frameByte_toNat_eq_byteValue, BitVec.toNat_and]
  exact congrArg (· * 256 + (frameByte f 3).toNat) (Nat.and_two_pow_sub_one_eq_mod _ 7)

/-- Sign and magnitude of 15 bits fit the register, without its least value. -/
theorem decodeModelB_temp (f : Frame) :
    (decodeModelB f).temp.toInt =
      (if 128 ≤ byteValue f 2 then -1 else 1) * (byteValue f 2 % 128 * 256 + byteValue f 3 : Int) := by
  have h3 := byteValue_lt f 3
  have hsign : (frameByte f 2).getLsbD 7 = decide (128 ≤ byteValue f 2) := decodeModelB_tneg f
  have hmod : byteValue f 2 % 128 < 128 := Nat.mod_lt _ (by decide)
  have hmag := magnitude_eq f
  rw [decodeModelB, hsign]
  by_cases hneg : 128 ≤ byteValue f 2 <;> simp only [hneg, decide_true, decide_false, if_true, if_false, Bool.false_eq_true]
  all_goals
    rw [BitVec.toInt_ofInt_eq_self] <;> omega

/-- Settles O35: the passing validation of a Model A frame, whose products and sums the 16-bit registers hold exactly. -/
theorem modelAReading : Obligations.ModelAReading := by
  intro s hl hq hph hsum hv
  have hstep := step_validate hl hq hph (validateCycle_passes hsum)
  have hreading : decodeReading s.regs.variant s.regs.frame = decodeModelA s.regs.frame := by rw [hv]; rfl
  rw [Regs.validated, hreading] at hstep
  exact ⟨_, _, decodeModelA_hum s.regs.frame, decodeModelA_temp s.regs.frame, hstep⟩

/-- Settles O36: the passing validation of a Model B frame, sign and magnitude. -/
theorem modelBReading : Obligations.ModelBReading := by
  intro s hl hq hph hsum hv
  have hstep := step_validate hl hq hph (validateCycle_passes hsum)
  have hreading : decodeReading s.regs.variant s.regs.frame = decodeModelB s.regs.frame := by rw [hv]; rfl
  rw [Regs.validated, hreading, decodeModelB_tneg] at hstep
  exact ⟨_, _, decodeModelB_hum s.regs.frame, decodeModelB_temp s.regs.frame, hstep⟩

/-- Settles O38: the zero frame's checksum holds and both unit decodes map it to zeros; the sum of four bytes 0xFF ends in
0xFC. -/
theorem zeroFramePassesAllOnesFails : Obligations.ZeroFramePassesAllOnesFails := by
  refine ⟨fun s hl hq hph hframe => ?zeros, fun s hl hq hph hframe => ?ones⟩
  case zeros =>
    have hsum : ChecksumHolds s.regs.frame := by rw [hframe]; decide
    have hzero : ∀ v, decodeReading v 0#40 = ⟨0#16, 0#16, false⟩ := by rintro (_ | _) <;> decide
    refine ⟨_, step_validate hl hq hph (validateCycle_passes hsum), ?_⟩
    simp [Regs.validated, hframe, hzero]
  case ones =>
    have hbad : ¬ChecksumHolds s.regs.frame := by rw [hframe]; decide
    exact ⟨_, step_validate hl hq hph (validateCycle_fails hbad), rfl, rfl⟩

end Sys2Proof.Machine
end

section
/-! SUPPORT. What a cycle can do, said once: in IDLE the host acts alone, and in a busy phase the sequencer makes one of nine
moves (10_state.md R27), past which the host writes OVR, ILL and CONV. From the moves: the invariant. -/

namespace Sys2Proof.Machine

/-! ### The two kinds of cycles -/

theorem cycleRegs_idle {i : Inputs} {r : Regs} (hr : i.rst = false) (hidle : r.phase = .idle) (p : Params) :
    cycleRegs p i r = hostRegs i r := by
  rw [cycleRegs_noReset hr, hidle]
  rfl

theorem cycleRegs_busy {i : Inputs} {r : Regs} (hr : i.rst = false) (hbusy : r.phase ≠ .idle) (p : Params) :
    cycleRegs p i r =
      { sequencerCycle p i r.phase r with
        ovr := (hostRegs i r).ovr, ill := (hostRegs i r).ill, conv := (hostRegs i r).conv } := by
  rw [cycleRegs_noReset hr, sequencerCycle_hostRegs_busy hbusy]

theorem commandRegs_begin_of_idle {r : Regs} (hidle : r.phase = .idle) (ioErr : Bool) :
    commandRegs .begin ioErr r = acceptBegin ioErr r :=
  if_pos hidle

theorem commandRegs_read_of_idle {r : Regs} (hidle : r.phase = .idle) (ioErr : Bool) :
    commandRegs .read ioErr r = acceptRead ioErr r :=
  if_pos hidle

/-! ### The moves of the sequencer -/

/-- What the sequencer does in a busy phase, in a cycle without reset. -/
inductive SequencerMove (p : Params) (i : Inputs) (r : Regs) : Regs → Prop
  /-- Nothing happens: there is no tick, or START_LOW has counted past its hold (log 9). -/
  | rests : r.phase ≠ .validate → (i.tick = true → r.phase = .startLow ∧ p.hold r.variant < r.cnt + 1) →
      SequencerMove p i r r
  /-- A wait counts a tick before its last (41_signalling.md R136). -/
  | waits {n : Nat} : waitLength p r.variant r.phase = some n → i.tick = true → r.cnt + 1 ≠ n →
      SequencerMove p i r (r.setCnt p (r.cnt + 1))
  /-- A sample at the expected level is counted (42_capture.md R152). -/
  | counts : expectedLevel r.phase = some i.dqIn → i.tick = true → r.cnt + 1 ≤ p.maxCycles →
      SequencerMove p i r (r.setCnt p (r.cnt + 1))
  /-- BEGIN is done (41_signalling.md R131). -/
  | begins : r.phase = .beginWait → i.tick = true → r.cnt + 1 = p.beginWaitTicks →
      SequencerMove p i r { r.enter .idle 0 with init := true }
  /-- The line is released after the hold (41_signalling.md R133). -/
  | releases : r.phase = .startLow → i.tick = true → r.cnt + 1 = p.hold r.variant → i.ioErr = false →
      SequencerMove p i r (r.pinHigh.enter .startRel 0)
  /-- The capture begins (41_signalling.md R135). -/
  | listens : r.phase = .startRel → i.tick = true → r.cnt + 1 = p.releaseTicks → SequencerMove p i r (r.enter .ackLow 0)
  /-- A sample ends the pulse being measured (42_capture.md R153, R154). -/
  | pulseEnds : expectedLevel r.phase = some (!i.dqIn) → i.tick = true → i.ioErr = false →
      SequencerMove p i r (pulseEnd p r)
  /-- The checksum holds (43_validate_decode.md R181). -/
  | validates : r.phase = .validate → ChecksumHolds r.frame → SequencerMove p i r r.validated
  /-- The command ends with an error (60_exceptions.md R225). -/
  | fails {code : ErrCode} : TransitionRow p r i .idle → code = .timeout ∨ code = .checksum ∨ code = .ioError →
      SequencerMove p i r (r.fail code)

section Moves

variable {p : Params} {i : Inputs} {r : Regs}

theorem SequencerMove.of_noTick (ht : i.tick = false) (hv : r.phase ≠ .validate) : SequencerMove p i r r :=
  .rests hv fun h => by rw [ht] at h; cases h

theorem beginWaitCycle_move (hph : r.phase = .beginWait) : SequencerMove p i r (beginWaitCycle p i r) := by
  cases ht : i.tick with
  | false =>
    rw [beginWaitCycle_noTick ht]
    exact .of_noTick ht (by simp [hph])
  | true =>
    rw [beginWaitCycle, if_pos ht]
    split
    · next hc => exact .begins hph ht hc
    · next hc => exact .waits (by rw [hph]; rfl) ht hc

theorem startLowCycle_move (hr : i.rst = false) (hph : r.phase = .startLow) : SequencerMove p i r (startLowCycle p i r) := by
  have hwait : waitLength p r.variant r.phase = some (p.hold r.variant) := by rw [hph, waitLength_startLow]
  cases ht : i.tick with
  | false => simpa [startLowCycle, ht] using SequencerMove.of_noTick ht (by simp [hph])
  | true =>
    rcases lt_trichotomy (r.cnt + 1) (p.hold r.variant) with hc | hc | hc
    · simpa [startLowCycle, ht, hc] using SequencerMove.waits hwait ht hc.ne
    · cases hpad : i.ioErr with
      | false => exact startLowCycle_releases ht hpad hc ▸ .releases hph ht hc hpad
      | true =>
        rw [startLowCycle_fails ht hpad hc]
        exact .fails (.holdFailed hr hph ht (by rw [waitLength_startLow, hc]) hpad) (.inr (.inr rfl))
    · simpa [startLowCycle, ht, hc.le.not_gt, hc.ne'] using SequencerMove.rests (p := p) (by simp [hph]) fun _ => ⟨hph, hc⟩

theorem startRelCycle_move (hph : r.phase = .startRel) : SequencerMove p i r (startRelCycle p i r) := by
  cases ht : i.tick with
  | false => simpa [startRelCycle, ht] using SequencerMove.of_noTick ht (by simp [hph])
  | true =>
    rw [startRelCycle, if_pos ht]
    split
    · next hc => exact .listens hph ht hc
    · next hc => exact .waits (by rw [hph]; rfl) ht hc

theorem measureCycle_move (hr : i.rst = false) {level : Bool} (hlevel : expectedLevel r.phase = some level) :
    SequencerMove p i r (measureCycle p i level (pulseEnd p r) r) := by
  have hsome : (expectedLevel r.phase).isSome = true := by rw [hlevel]; rfl
  unfold measureCycle
  split
  · next ht =>
    split
    · next hpad => exact .fails (.sampleFailed hr hsome ht hpad) (.inr (.inr rfl))
    · next hpad =>
      rw [Bool.not_eq_true] at hpad
      split
      · next hline =>
        subst hline
        split
        · next hc => exact .fails (.timedOut hr hlevel ht hpad hc) (.inl rfl)
        · next hc => exact .counts hlevel ht (Nat.not_lt.mp hc)
      · next hline => exact .pulseEnds (hlevel.trans (congrArg some (Bool.eq_not.mpr (Ne.symm hline)))) ht hpad
  · next ht => exact .of_noTick (Bool.eq_false_iff.mpr ht) (Phase.ne_of_expectedLevel hlevel rfl)

theorem validateCycle_move (hr : i.rst = false) (hph : r.phase = .validate) : SequencerMove p i r (validateCycle r) := by
  by_cases hsum : ChecksumHolds r.frame
  · exact validateCycle_passes hsum ▸ .validates hph hsum
  · exact validateCycle_fails hsum ▸ .fails (.checksumFails hr hph hsum) (.inr (.inl rfl))

/-- The sequencer does nothing but its moves. -/
theorem sequencerCycle_move (hr : i.rst = false) (hu : r.phase.used = true) (hbusy : r.phase ≠ .idle) :
    SequencerMove p i r (sequencerCycle p i r.phase r) := by
  cases hlevel : expectedLevel r.phase with
  | some level => exact sequencerCycle_measures hlevel i ▸ measureCycle_move hr hlevel
  | none =>
    cases hph : r.phase with
    | idle => exact absurd hph hbusy
    | beginWait => exact beginWaitCycle_move hph
    | startLow => exact startLowCycle_move hr hph
    | startRel => exact startRelCycle_move hph
    | validate => exact validateCycle_move hr hph
    | ackLow | ackHigh | bitLow | bitHigh =>
      rw [hph] at hlevel
      cases hlevel
    | unused k =>
      rw [hph] at hu
      cases hu

end Moves

/-! ### The invariant: how each kind of write keeps it -/

section Invariant

variable {p : Params} {r : Regs}

/-- Every phase's bound on CNT fits CNT_W bits (00_scope.md R7). -/
theorem cntInPhase_fits (h : cntInPhase p r = true) : r.cnt < 2 ^ p.cntW := by
  obtain ⟨hbegin, -, -, hrelease⟩ := p.waits_le
  have hcycles := p.maxCycles_add_two_le
  have hhold := p.hold_le r.variant
  unfold cntInPhase at h
  split at h <;> simp only [decide_eq_true_eq, Bool.false_eq_true] at h <;> omega

/-- The cleanup state with a code that some rule writes. -/
theorem Regs.Inv.fail {code : ErrCode} (hcode : code = .none ∨ code = .timeout ∨ code = .checksum ∨ code = .ioError)
    (hconv : -58662 ≤ r.conv.toInt ∧ r.conv.toInt ≤ 59301) : (r.fail code).Inv p where
  phaseUsed := rfl
  cntFits := Nat.two_pow_pos _
  cntInPhase := rfl
  bitsInPhase := rfl
  frameHoldsBits := Nat.two_pow_pos _
  lineLowInHold := rfl
  errWritten := hcode
  busyShowsNothing h := absurd rfl h
  validHasNoError h := by cases h
  invalidReadsZero _ := ⟨rfl, rfl, rfl⟩
  modelARange _ := ⟨Nat.zero_le _, by simp, by simp, rfl⟩
  tempNotMin := by simp
  convRange := hconv

theorem Regs.Inv.reset (p : Params) (strap : Variant) : (resetRegs strap).Inv p :=
  Regs.Inv.fail (r := resetRegs strap) (.inl rfl) (by simp)

/-- The host's three registers are free but for CONV's range. -/
theorem Regs.Inv.withHost (h : r.Inv p) (ovr ill : Bool) {conv : Word} (hconv : -58662 ≤ conv.toInt ∧ conv.toInt ≤ 59301) :
    Regs.Inv p { r with ovr := ovr, ill := ill, conv := conv } :=
  { h with convRange := hconv }

/-- Where there is no result and no error, the sequencer's own registers may take any values that fit their phase. -/
theorem Regs.Inv.sequence {r' : Regs} (h : r.Inv p) (hshows : r.valid = false ∧ r.err = .none)
    (hsame : r' = { r with
      phase := r'.phase, cnt := r'.cnt, bitIdx := r'.bitIdx, frame := r'.frame, dqLow := r'.dqLow, init := r'.init })
    (hused : r'.phase.used = true) (hcnt : Machine.cntInPhase p r' = true) (hbits : Machine.bitsInPhase r' = true)
    (hframe : r'.frame.toNat < 2 ^ r'.bitIdx.toNat) (hline : r'.dqLow = decide (r'.phase = .startLow)) : r'.Inv p := by
  rw [hsame]
  rw [hsame] at hcnt hbits
  exact { h with
    phaseUsed := hused
    cntFits := cntInPhase_fits hcnt
    cntInPhase := hcnt
    bitsInPhase := hbits
    frameHoldsBits := hframe
    lineLowInHold := hline
    busyShowsNothing := fun _ => hshows }

/-- In IDLE the hidden registers are clear (10_state.md R43). -/
theorem Regs.Inv.hidden_of_idle (h : r.Inv p) (hidle : r.phase = .idle) :
    r.cnt = 0 ∧ r.bitIdx = 0 ∧ r.frame = 0 ∧ r.dqLow = false := by
  have hcnt := h.cntInPhase
  have hbits := h.bitsInPhase
  have hframe := h.frameHoldsBits
  have hline := h.lineLowInHold
  simp only [Machine.cntInPhase, Machine.bitsInPhase, hidle, decide_eq_true_eq] at hcnt hbits hline
  rw [hbits, Nat.pow_zero, Nat.lt_one_iff] at hframe
  exact ⟨hcnt, BitVec.eq_of_toNat_eq hbits, BitVec.eq_of_toNat_eq hframe, hline⟩

/-- The line is low in START_LOW alone. -/
theorem Regs.Inv.line_released (h : r.Inv p) (hph : r.phase ≠ .startLow) : r.dqLow = false := by
  rw [h.lineLowInHold, decide_eq_false hph]

/-- The acceptance of BEGIN or READ, in the clear registers of IDLE: no result, no error, and the phase `ph` with CNT at 0. -/
theorem Regs.Inv.accepted {r' : Regs} (h : r.Inv p) (hidle : r.phase = .idle)
    (hsame : r' = { r.fail .none with
      phase := r'.phase, cnt := 0, bitIdx := r.bitIdx, frame := r.frame, dqLow := r'.dqLow, init := r'.init })
    (hused : r'.phase.used = true) (hcnt : Machine.cntInPhase p r' = true)
    (hph : r'.phase = .beginWait ∨ r'.phase = .startLow) (hline : r'.dqLow = decide (r'.phase = .startLow)) : r'.Inv p := by
  obtain ⟨-, hbits, hframe, -⟩ := h.hidden_of_idle hidle
  rw [hbits, hframe] at hsame
  refine (Regs.Inv.fail (r := r) (.inl rfl) h.convRange).sequence ⟨rfl, rfl⟩ ?_ hused hcnt ?_ ?_ hline
  · rw [hsame]
  · rw [hsame]
    rcases hph with hph | hph <;> simp [Machine.bitsInPhase, hph]
  · rw [hsame]
    exact Nat.one_pos

/-- A pin drive that fails in IDLE leaves the cleanup state: there the hidden registers are clear already. -/
theorem Regs.Inv.fail_of_idle (h : r.Inv p) (hidle : r.phase = .idle) (code : ErrCode) :
    { r.clearResults.pinHigh with err := code } = r.fail code := by
  obtain ⟨hcnt, hbits, hframe, -⟩ := h.hidden_of_idle hidle
  simp only [Regs.clearResults, Regs.pinHigh, Regs.fail, Regs.cleanup, hidle, hcnt, hbits, hframe]

theorem Regs.Inv.acceptBegin (h : r.Inv p) (hl : p.Legal) (hidle : r.phase = .idle) (ioErr : Bool) :
    (Machine.acceptBegin ioErr r).Inv p := by
  obtain ⟨-, -, ⟨hwait, -⟩, -⟩ := hl
  cases ioErr with
  | false => exact h.accepted hidle rfl rfl (decide_eq_true hwait) (.inl rfl) rfl
  | true =>
    have hfail : (r.fail .ioError).Inv p := Regs.Inv.fail (.inr (.inr (.inr rfl))) h.convRange
    have haccept : Machine.acceptBegin true r = { r.fail .ioError with init := false } := by
      rw [← h.fail_of_idle hidle]
      rfl
    rw [haccept]
    exact { hfail with }

theorem Regs.Inv.acceptRead (h : r.Inv p) (hl : p.Legal) (hidle : r.phase = .idle) (ioErr : Bool) :
    (Machine.acceptRead ioErr r).Inv p := by
  cases ioErr with
  | false => exact h.accepted hidle rfl rfl (decide_eq_true (hl.hold_pos r.variant)) (.inr rfl) rfl
  | true =>
    have haccept : Machine.acceptRead true r = r.fail .ioError := h.fail_of_idle hidle .ioError
    exact haccept ▸ Regs.Inv.fail (.inr (.inr (.inr rfl))) h.convRange

theorem Regs.Inv.commandRegs (h : r.Inv p) (hl : p.Legal) {c : Instr} (hc : c.wellFormed = true) (ioErr : Bool) :
    (Machine.commandRegs c ioErr r).Inv p := by
  cases c with
  | nop => exact h
  | begin =>
    by_cases hidle : r.phase = .idle
    · exact commandRegs_begin_of_idle hidle ioErr ▸ h.acceptBegin hl hidle ioErr
    · exact commandRegs_busy_start (.inl rfl) hidle ioErr ▸ h.withHost true r.ill h.convRange
  | read =>
    by_cases hidle : r.phase = .idle
    · exact commandRegs_read_of_idle hidle ioErr ▸ h.acceptRead hl hidle ioErr
    · exact commandRegs_busy_start (.inr rfl) hidle ioErr ▸ h.withHost true r.ill h.convRange
  | c2f v =>
    have hrange := celsiusToFahrenheit_range (of_decide_eq_true hc)
    exact h.withHost r.ovr r.ill ((Regs.setConv_conv_toInt hrange r).symm ▸ hrange)
  | f2c v =>
    have hrange := fahrenheitToCelsius_range (of_decide_eq_true hc)
    exact h.withHost r.ovr r.ill ((Regs.setConv_conv_toInt hrange r).symm ▸ hrange)

/-- The host's write keeps it, in any phase. -/
theorem Regs.Inv.hostRegs (h : r.Inv p) (hl : p.Legal) {i : Inputs} (hr : i.rst = false) : (Machine.hostRegs i r).Inv p := by
  obtain ⟨-, hnone⟩ | ⟨c, hw⟩ | ⟨why, hw⟩ := host_cases hr
  · exact (hnone r).symm ▸ h
  · exact hostRegs_command hw r ▸ h.commandRegs hl hw.wellFormed _
  · exact hostRegs_illegal hw r ▸ h.withHost r.ovr true h.convRange

/-- Counting keeps it below the phase's bound. -/
theorem Regs.Inv.setCnt (h : r.Inv p) (hbusy : r.phase ≠ .idle)
    (hcnt : Machine.cntInPhase p { r with cnt := r.cnt + 1 } = true) : (r.setCnt p (r.cnt + 1)).Inv p := by
  rw [Regs.setCnt_of_lt (cntInPhase_fits hcnt)]
  exact h.sequence (h.busyShowsNothing hbusy) rfl h.phaseUsed hcnt h.bitsInPhase h.frameHoldsBits h.lineLowInHold

theorem cntInPhase_iff_of_wait {n : Nat} (hwait : waitLength p r.variant r.phase = some n) :
    cntInPhase p r = true ↔ r.cnt < n := by
  cases hph : r.phase with
  | beginWait | startRel =>
    rw [hph] at hwait
    cases hwait
    simp [cntInPhase, hph]
  | startLow =>
    rw [hph, waitLength_startLow] at hwait
    cases hwait
    simp [cntInPhase, hph]
  | _ =>
    rw [hph] at hwait
    cases hwait

theorem cntInPhase_of_measuring {level : Bool} (hlevel : expectedLevel r.phase = some level) (hpos : 1 ≤ r.cnt)
    (hmax : r.cnt ≤ p.maxCycles) : cntInPhase p r = true := by
  cases hph : r.phase with
  | ackLow | ackHigh | bitLow | bitHigh => simp [cntInPhase, hph, hpos, hmax]
  | _ =>
    rw [hph] at hlevel
    cases hlevel

/-- A received bit is one bit more of FRAME. -/
theorem shiftIn_frame_lt {b : Bool} (hframe : r.frame.toNat < 2 ^ r.bitIdx.toNat) (hbits : r.bitIdx.toNat < 40) :
    (r.shiftIn b).frame.toNat < 2 ^ (r.shiftIn b).bitIdx.toNat := by
  have hidx : (r.bitIdx + 1).toNat = r.bitIdx.toNat + 1 := by bv_omega
  have hvalue : (r.shiftIn b).frame.toNat = 2 * (r.frame.toNat % 2 ^ 39) + b.toNat := by
    rw [Regs.shiftIn_frame, BitVec.toNat_append, ← Nat.shiftLeft_add_eq_or_of_lt (BitVec.ofBool b).isLt, Nat.shiftLeft_eq]
    simp [Nat.mul_comm]
  have hkept := Nat.mod_le r.frame.toNat (2 ^ 39)
  have hbit := Bool.toNat_le b
  rw [Regs.shiftIn_bitIdx, hidx, hvalue, pow_succ]
  omega

theorem Regs.Inv.pulseEnd {level : Bool} (h : r.Inv p) (hl : p.Legal) (hlevel : expectedLevel r.phase = some level) :
    (Machine.pulseEnd p r).Inv p := by
  obtain ⟨⟨hmax, -⟩, -⟩ := hl
  have hcnt : decide (1 ≤ 1 ∧ 1 ≤ p.maxCycles) = true := decide_eq_true ⟨le_refl 1, hmax⟩
  have hshows := h.busyShowsNothing (Phase.ne_of_expectedLevel hlevel rfl)
  have hline := h.line_released (Phase.ne_of_expectedLevel hlevel rfl)
  have hbits := h.bitsInPhase
  have hframe := h.frameHoldsBits
  unfold Machine.pulseEnd
  cases hph : r.phase with
  | ackLow | bitLow =>
    simp only [Machine.bitsInPhase, hph] at hbits
    exact h.sequence hshows rfl rfl hcnt hbits hframe hline
  | ackHigh =>
    simp only [Machine.bitsInPhase, hph, decide_eq_true_eq] at hbits
    refine h.sequence hshows rfl rfl hcnt (decide_eq_true ?_) hframe hline
    rw [Regs.enter_bitIdx, hbits]
    decide
  | bitHigh =>
    simp only [Machine.bitsInPhase, hph, decide_eq_true_eq] at hbits
    have hshifted := shiftIn_frame_lt (b := dataBit p r.cnt) hframe hbits
    have hidx : (r.bitIdx + 1).toNat = r.bitIdx.toNat + 1 := by bv_omega
    by_cases hlast : r.bitIdx.toNat + 1 = 40
    · rw [dataPulseEnd_last hlast]
      exact h.sequence hshows rfl rfl rfl (decide_eq_true (hidx.trans hlast)) hshifted hline
    · rw [dataPulseEnd_more hlast]
      refine h.sequence hshows rfl rfl hcnt (decide_eq_true ?_) hshifted hline
      rw [Regs.enter_bitIdx, Regs.shiftIn_bitIdx]
      omega
  | _ =>
    rw [hph] at hlevel
    cases hlevel

/-- The ranges of a reading (10_state.md R36, R40, R41). -/
theorem decodeModelA_range (f : Frame) :
    (decodeModelA f).hum.toNat ≤ 2805 ∧ 0 ≤ (decodeModelA f).temp.toInt ∧ (decodeModelA f).temp.toInt ≤ 2805 := by
  have hbyte := byteValue_lt f
  have h0 := hbyte 0
  have h1 := hbyte 1
  have h2 := hbyte 2
  have h3 := hbyte 3
  rw [decodeModelA_hum, decodeModelA_temp]
  omega

theorem decodeReading_temp_ne (v : Variant) (f : Frame) : (decodeReading v f).temp.toInt ≠ -32768 := by
  cases v with
  | modelA =>
    obtain ⟨-, hlow, -⟩ := decodeModelA_range f
    exact fun h => absurd (h ▸ hlow) (by decide)
  | modelB =>
    have h3 := byteValue_lt f 3
    rw [decodeReading, decodeModelB_temp]
    split <;> omega

theorem Regs.Inv.validated (h : r.Inv p) (hph : r.phase = .validate) : r.validated.Inv p where
  phaseUsed := rfl
  cntFits := Nat.two_pow_pos _
  cntInPhase := rfl
  bitsInPhase := rfl
  frameHoldsBits := Nat.two_pow_pos _
  lineLowInHold := h.line_released (by simp [hph])
  errWritten := h.errWritten
  busyShowsNothing hi := absurd rfl hi
  validHasNoError _ := (h.busyShowsNothing (by simp [hph])).2
  invalidReadsZero hi := by cases hi
  modelARange hv := by
    have hread : decodeReading r.variant r.frame = decodeModelA r.frame := by rw [show r.variant = .modelA from hv]; rfl
    obtain ⟨hhum, hlow, hhigh⟩ := decodeModelA_range r.frame
    simp only [Regs.validated, hread]
    exact ⟨hhum, hlow, hhigh, rfl⟩
  tempNotMin := decodeReading_temp_ne r.variant r.frame
  convRange := h.convRange

/-- Every move of the sequencer keeps it. -/
theorem Regs.Inv.move {i : Inputs} {r' : Regs} (h : r.Inv p) (hl : p.Legal) (hbusy : r.phase ≠ .idle)
    (hm : SequencerMove p i r r') : r'.Inv p := by
  have hshows := h.busyShowsNothing hbusy
  have hbits := h.bitsInPhase
  have hline := h.line_released
  cases hm with
  | rests => exact h
  | waits hwait ht hc =>
    have hlt := (cntInPhase_iff_of_wait hwait).mp h.cntInPhase
    exact h.setCnt hbusy ((cntInPhase_iff_of_wait (r := { r with cnt := r.cnt + 1 }) hwait).mpr (by dsimp only; omega))
  | counts hlevel ht hc =>
    exact h.setCnt hbusy
      (cntInPhase_of_measuring (r := { r with cnt := r.cnt + 1 }) hlevel (Nat.le_add_left 1 _) hc)
  | begins hph =>
    simp only [Machine.bitsInPhase, hph] at hbits
    exact h.sequence hshows rfl rfl rfl hbits h.frameHoldsBits (hline (by simp [hph]))
  | releases hph =>
    simp only [Machine.bitsInPhase, hph] at hbits
    obtain ⟨-, -, -, -, -, ⟨hwait, -⟩⟩ := hl
    exact h.sequence hshows rfl rfl (decide_eq_true hwait) hbits h.frameHoldsBits rfl
  | listens hph =>
    simp only [Machine.bitsInPhase, hph] at hbits
    exact h.sequence hshows rfl rfl (decide_eq_true (Nat.zero_le p.maxCycles)) hbits h.frameHoldsBits (hline (by simp [hph]))
  | pulseEnds hlevel => exact h.pulseEnd hl hlevel
  | validates hph => exact h.validated hph
  | fails _ hcode => exact Regs.Inv.fail (.inr hcode) h.convRange

/-- Every cycle keeps it. -/
theorem Regs.Inv.cycleRegs (h : r.Inv p) (hl : p.Legal) (i : Inputs) : (Machine.cycleRegs p i r).Inv p := by
  cases hr : i.rst with
  | true => exact cycleRegs_reset hr p r ▸ Regs.Inv.reset p i.variant
  | false =>
    have hhost := h.hostRegs hl hr
    by_cases hidle : r.phase = .idle
    · exact cycleRegs_idle hr hidle p ▸ hhost
    · have hphase : (Machine.hostRegs i r).phase = r.phase := by rw [hostRegs_busy hidle]
      rw [← hphase] at hidle
      rw [cycleRegs_noReset hr, ← hphase]
      exact hhost.move hl hidle (sequencerCycle_move hr hhost.phaseUsed hidle)

end Invariant

end Sys2Proof.Machine
end

section
/-! SUPPORT. The statements on the invariant (10_state.md R29 to R43), and the transition table (R27): a row gives the phase its
rule enters, and a move that changes PHASE is a row. -/

namespace Sys2Proof.Machine

/-! ### The invariant -/

/-- Settles O9: the default parameters are legal, and the registers are those of a reset cycle. -/
theorem powerOnStateMeetsInvariant : Obligations.PowerOnStateMeetsInvariant where
  legal := Config.defaults.legal_of_lower_bounds (by decide) (by decide) (by decide) (by decide) (by decide) (by decide)
  regs := reset_regs ▸ Regs.Inv.reset _ _

/-- Settles O39: a cycle is the host's write and a move of the sequencer, and each keeps the registers' invariant. -/
theorem stepKeepsInvariant : Obligations.StepKeepsInvariant := by
  intro s t h hstep
  obtain ⟨hl, -, rfl⟩ := step_cases hstep
  exact ⟨hl, h.regs.cycleRegs hl s.inputs⟩

/-- Settles O40: the invariant has legal parameters and a used PHASE, from which the step answers a next state. -/
theorem invariantStatesNeverStop : Obligations.InvariantStatesNeverStop := by
  intro s h
  have hstep := step_eq h.legal (.inr h.regs.phaseUsed)
  exact ⟨_, hstep, stepKeepsInvariant s _ h hstep⟩

theorem Reachable.inv {s : State} (h : Reachable s) : s.Inv := by
  induction h with
  | afterReset s strap hl hs => exact ⟨hl, hs ▸ Regs.Inv.reset s.params strap⟩
  | afterStep s t _ hstep ih => exact stepKeepsInvariant s t ih hstep

/-- Settles O48: BUSY is bit 0 of STATUS, and the invariant ties the line to START_LOW. -/
theorem outputsFollowThePhase : Obligations.OutputsFollowThePhase := by
  refine ⟨fun s => ⟨rfl, ?_⟩, fun s hs => ?_⟩
  · rw [busRead_status, Regs.status_getLsbD]
    simp [Regs.busy]
  · rw [dqPullLow, hs.inv.regs.lineLowInHold, decide_eq_true_eq]

/-! ### The transition table (10_state.md R27) -/

section Table

variable {p : Params} {i : Inputs} {r : Regs}

theorem cycleRegs_busy_phase (hr : i.rst = false) (hbusy : r.phase ≠ .idle) :
    (cycleRegs p i r).phase = (sequencerCycle p i r.phase r).phase := by
  rw [cycleRegs_busy hr hbusy]

theorem cycleRegs_command_of_idle {c : Instr} (hidle : r.phase = .idle) (hw : CommandWrite i (.command c)) :
    cycleRegs p i r = commandRegs c i.ioErr r := by
  rw [cycleRegs_idle hw.1 hidle, hostRegs_command hw]

theorem acceptBegin_phase (hidle : r.phase = .idle) (ioErr : Bool) :
    (acceptBegin ioErr r).phase = if ioErr then .idle else .beginWait := by
  cases ioErr
  exacts [rfl, hidle]

theorem acceptRead_phase (hidle : r.phase = .idle) (ioErr : Bool) :
    (acceptRead ioErr r).phase = if ioErr then .idle else .startLow := by
  cases ioErr
  exacts [rfl, hidle]

/-- A row of the table that applies in a measurement phase: the branch of the phase's rule gives the new phase. -/
theorem cycleRegs_measuring_phase {level : Bool} {r' : Regs} (hr : i.rst = false) (hlevel : expectedLevel r.phase = some level)
    (h : measureCycle p i level (pulseEnd p r) r = r') : (cycleRegs p i r).phase = r'.phase := by
  have hbusy : r.phase ≠ .idle := Phase.ne_of_expectedLevel hlevel rfl
  rw [cycleRegs_busy_phase hr hbusy, sequencerCycle_measures hlevel, h]

theorem cycleRegs_pulseEnd_phase (hr : i.rst = false) (ht : i.tick = true) (hpad : i.ioErr = false)
    (hlevel : expectedLevel r.phase = some (!i.dqIn)) : (cycleRegs p i r).phase = (pulseEnd p r).phase :=
  cycleRegs_measuring_phase hr hlevel (measureCycle_ends ht hpad (by simp) ..)

/-- Every row that applies gives the phase. -/
theorem TransitionRow.phase {ph : Phase} (h : TransitionRow p r i ph) : (cycleRegs p i r).phase = ph := by
  have hwait {ph' : Phase} (hr : i.rst = false) (hph : r.phase = ph') (hbusy : ph' ≠ .idle) :
      (cycleRegs p i r).phase = (sequencerCycle p i ph' r).phase := hph ▸ cycleRegs_busy_phase hr (hph ▸ hbusy)
  cases h with
  | reset hr => rw [cycleRegs_reset hr, resetRegs_phase]
  | beginAccepted hidle hw hpad | beginFailed hidle hw hpad =>
    rw [cycleRegs_command_of_idle hidle hw, commandRegs_begin_of_idle hidle, acceptBegin_phase hidle, hpad]
    rfl
  | readAccepted hidle hw hpad | readFailed hidle hw hpad =>
    rw [cycleRegs_command_of_idle hidle hw, commandRegs_read_of_idle hidle, acceptRead_phase hidle, hpad]
    rfl
  | beginDone hr hph ht hc =>
    rw [hwait hr hph (by decide), sequencerCycle, beginWaitCycle_ends ht hc]
    rfl
  | holdDone hr hph ht hc hpad =>
    rw [waitLength_startLow, Option.some.injEq] at hc
    rw [hwait hr hph (by decide), sequencerCycle, startLowCycle_releases ht hpad hc, Regs.enter_phase]
  | holdFailed hr hph ht hc hpad =>
    rw [waitLength_startLow, Option.some.injEq] at hc
    rw [hwait hr hph (by decide), sequencerCycle, startLowCycle_fails ht hpad hc, Regs.fail_phase]
  | releaseDone hr hph ht hc => rw [hwait hr hph (by decide), sequencerCycle, startRelCycle_ends ht hc, Regs.enter_phase]
  | sampleFailed hr hsome ht hpad =>
    obtain ⟨level, hlevel⟩ := Option.isSome_iff_exists.mp hsome
    rw [cycleRegs_measuring_phase hr hlevel (measureCycle_ioErr ht hpad ..), Regs.fail_phase]
  | timedOut hr hlevel ht hpad hc =>
    rw [cycleRegs_measuring_phase hr hlevel (measureCycle_timeout ht hpad hc _), Regs.fail_phase]
  | ackLowEnds hr hph ht hpad hline | ackHighEnds hr hph ht hpad hline | bitLowEnds hr hph ht hpad hline =>
    rw [cycleRegs_pulseEnd_phase hr ht hpad (by rw [hph, hline]; rfl), pulseEnd, hph]
    rfl
  | bitEnds hr hph ht hpad hline hbits =>
    rw [cycleRegs_pulseEnd_phase hr ht hpad (by rw [hph, hline]; rfl), pulseEnd, hph]
    exact congrArg Regs.phase (dataPulseEnd_more hbits.ne p)
  | frameEnds hr hph ht hpad hline hbits =>
    rw [cycleRegs_pulseEnd_phase hr ht hpad (by rw [hph, hline]; rfl), pulseEnd, hph]
    exact congrArg Regs.phase (dataPulseEnd_last hbits p)
  | checksumFails hr hph hsum =>
    rw [hwait hr hph (by decide), sequencerCycle, validateCycle_fails hsum, Regs.fail_phase]
  | checksumPasses hr hph hsum =>
    rw [hwait hr hph (by decide), sequencerCycle, validateCycle_passes hsum]
    rfl

/-- The end of a pulse is a row of the table; the bit count is below 40 in a state of the invariant. -/
theorem transitionRow_pulseEnd (hr : i.rst = false) (hbits : bitsInPhase r = true)
    (hlevel : expectedLevel r.phase = some (!i.dqIn)) (ht : i.tick = true) (hpad : i.ioErr = false) :
    TransitionRow p r i (pulseEnd p r).phase := by
  unfold pulseEnd
  cases hph : r.phase with
  | ackLow => exact .ackLowEnds hr hph ht hpad (by simpa [hph, expectedLevel] using hlevel)
  | ackHigh => exact .ackHighEnds hr hph ht hpad (by simpa [hph, expectedLevel] using hlevel)
  | bitLow => exact .bitLowEnds hr hph ht hpad (by simpa [hph, expectedLevel] using hlevel)
  | bitHigh =>
    have hline : i.dqIn = false := by simpa [hph, expectedLevel] using hlevel
    simp only [bitsInPhase, hph, decide_eq_true_eq] at hbits
    by_cases hlast : r.bitIdx.toNat + 1 = 40
    · rw [dataPulseEnd_last hlast]
      exact .frameEnds hr hph ht hpad hline hlast
    · rw [dataPulseEnd_more hlast]
      exact .bitEnds hr hph ht hpad hline (by omega)
  | _ =>
    rw [hph] at hlevel
    cases hlevel

/-- A move that changes PHASE is a row of the table. -/
theorem SequencerMove.phase_or_row {r' : Regs} (h : SequencerMove p i r r') (hr : i.rst = false) (hbits : bitsInPhase r = true) :
    r'.phase = r.phase ∨ TransitionRow p r i r'.phase := by
  cases h with
  | rests | waits | counts => exact .inl rfl
  | begins hph ht hc => exact .inr (.beginDone hr hph ht hc)
  | releases hph ht hc hpad => exact .inr (.holdDone hr hph ht (by rw [waitLength_startLow, hc]) hpad)
  | listens hph ht hc => exact .inr (.releaseDone hr hph ht hc)
  | pulseEnds hlevel ht hpad => exact .inr (transitionRow_pulseEnd hr hbits hlevel ht hpad)
  | validates hph hsum => exact .inr (.checksumPasses hr hph hsum)
  | fails hrow => exact .inr hrow

/-- In IDLE only an accepted BEGIN or READ changes PHASE. -/
theorem hostRegs_phase_or_row (hr : i.rst = false) (hidle : r.phase = .idle) :
    (hostRegs i r).phase = r.phase ∨ TransitionRow p r i (hostRegs i r).phase := by
  obtain ⟨-, hnone⟩ | ⟨c, hw⟩ | ⟨why, hw⟩ := host_cases hr
  · exact .inl (congrArg Regs.phase (hnone r))
  · rw [hostRegs_command hw]
    cases c with
    | nop | c2f v | f2c v => exact .inl rfl
    | begin =>
      rw [commandRegs_begin_of_idle hidle, acceptBegin_phase hidle]
      cases hpad : i.ioErr
      exacts [.inr (.beginAccepted hidle hw hpad), .inl hidle.symm]
    | read =>
      rw [commandRegs_read_of_idle hidle, acceptRead_phase hidle]
      cases hpad : i.ioErr
      exacts [.inr (.readAccepted hidle hw hpad), .inl hidle.symm]
  · exact .inl (by rw [hostRegs_illegal hw, Regs.flagIllegal_phase])

theorem Regs.Inv.phase_or_row (h : r.Inv p) :
    (Machine.cycleRegs p i r).phase = r.phase ∨ TransitionRow p r i (Machine.cycleRegs p i r).phase := by
  cases hr : i.rst with
  | true =>
    rw [cycleRegs_reset hr]
    exact .inr (.reset hr)
  | false =>
    by_cases hidle : r.phase = .idle
    · rw [cycleRegs_idle hr hidle]
      exact hostRegs_phase_or_row hr hidle
    · rw [cycleRegs_busy_phase hr hidle]
      exact (sequencerCycle_move hr h.phaseUsed hidle).phase_or_row hr h.bitsInPhase

end Table

/-- Settles O42: every row gives the phase its rule enters, and every cycle that changes PHASE is in a row. -/
theorem phaseMovesOnlyByTheTable : Obligations.PhaseMovesOnlyByTheTable := by
  intro s t h hstep
  obtain ⟨-, -, rfl⟩ := step_cases hstep
  exact ⟨fun ph hrow => hrow.phase, fun hnone => h.regs.phase_or_row.resolve_right (hnone _)⟩

end Sys2Proof.Machine
end

section
/-! SUPPORT. The outcome registers ERR, VALID, INIT, HUM, TEMP and TNEG over a cycle (10_state.md section 5, 60_exceptions.md
R225): a move that stays busy writes none of them, and each move that ends a command writes its own. -/

namespace Sys2Proof.Machine

section Outcome

variable {p : Params} {i : Inputs} {r : Regs}

theorem dataPulseEnd_eq (p : Params) (r : Regs) :
    dataPulseEnd p r = { r with
      phase := (dataPulseEnd p r).phase, cnt := (dataPulseEnd p r).cnt, bitIdx := (dataPulseEnd p r).bitIdx,
      frame := (dataPulseEnd p r).frame } := by
  by_cases hlast : r.bitIdx.toNat + 1 = 40
  · rw [dataPulseEnd_last hlast]
    rfl
  · rw [dataPulseEnd_more hlast]
    rfl

/-- The end of a pulse writes the sequencer's own registers alone. -/
theorem pulseEnd_eq (p : Params) (r : Regs) :
    pulseEnd p r = { r with
      phase := (pulseEnd p r).phase, cnt := (pulseEnd p r).cnt, bitIdx := (pulseEnd p r).bitIdx,
      frame := (pulseEnd p r).frame } := by
  unfold pulseEnd
  cases r.phase with
  | bitHigh => exact dataPulseEnd_eq p r
  | _ => rfl

/-- A move that does not end the command leaves the outcome as it is. -/
theorem SequencerMove.eq_of_busy {r' : Regs} (h : SequencerMove p i r r') (hbusy : r'.phase ≠ .idle) :
    r' = { r with phase := r'.phase, cnt := r'.cnt, bitIdx := r'.bitIdx, frame := r'.frame, dqLow := r'.dqLow } := by
  cases h with
  | rests | waits | counts | releases | listens => rfl
  | pulseEnds => rw [pulseEnd_eq]
  | begins | validates | fails => exact absurd rfl hbusy

/-- Of the moves only `Fail` writes an error. -/
theorem SequencerMove.eq_fail_of_err {r' : Regs} (h : SequencerMove p i r r') (hnone : r.err = .none) (herr : r'.err ≠ .none) :
    (r'.err = .timeout ∨ r'.err = .checksum ∨ r'.err = .ioError) ∧ r' = r.fail r'.err := by
  cases h with
  | rests | waits | counts | begins | releases | listens | validates => exact absurd hnone herr
  | pulseEnds =>
    rw [pulseEnd_eq] at herr
    exact absurd hnone herr
  | fails _ hcode => exact ⟨hcode, rfl⟩

/-- Of the moves only the end of BEGIN_WAIT writes INIT. -/
theorem SequencerMove.init_eq_or {r' : Regs} (h : SequencerMove p i r r') :
    r'.init = r.init ∨ (r.phase = .beginWait ∧ i.tick = true ∧ r.cnt + 1 = p.beginWaitTicks) := by
  cases h with
  | begins hph ht hc => exact .inr ⟨hph, ht, hc⟩
  | rests | waits | counts | releases | listens | validates | fails => exact .inl rfl
  | pulseEnds => exact .inl (by rw [pulseEnd_eq])

/-- Of the moves only the passing validation sets VALID. -/
theorem SequencerMove.validates_of_valid {r' : Regs} (h : SequencerMove p i r r') (hinvalid : r.valid = false)
    (hvalid : r'.valid = true) : r.phase = .validate ∧ ChecksumHolds r.frame := by
  cases h with
  | validates hph hsum => exact ⟨hph, hsum⟩
  | rests | waits | counts | begins | releases | listens =>
    exact absurd hvalid (by simp [hinvalid])
  | pulseEnds =>
    rw [pulseEnd_eq] at hvalid
    exact absurd hvalid (by simp [hinvalid])
  | fails => cases hvalid

/-- A host's write that is no BEGIN and no READ touches OVR, ILL and CONV alone, in any phase. -/
theorem hostRegs_of_no_start (hr : i.rst = false) (hbegin : ¬CommandWrite i (.command .begin))
    (hread : ¬CommandWrite i (.command .read)) :
    hostRegs i r = { r with ovr := (hostRegs i r).ovr, ill := (hostRegs i r).ill, conv := (hostRegs i r).conv } := by
  obtain ⟨-, hnone⟩ | ⟨c, hw⟩ | ⟨why, hw⟩ := host_cases hr
  · rw [hnone]
  · rw [hostRegs_command hw]
    cases c with
    | begin => exact absurd hw hbegin
    | read => exact absurd hw hread
    | nop | c2f v | f2c v => rfl
  · rw [hostRegs_illegal hw]
    rfl

theorem acceptBegin_valid (ioErr : Bool) (r : Regs) : (acceptBegin ioErr r).valid = false := by cases ioErr <;> rfl
theorem acceptRead_valid (ioErr : Bool) (r : Regs) : (acceptRead ioErr r).valid = false := by cases ioErr <;> rfl
theorem acceptRead_init (ioErr : Bool) (r : Regs) : (acceptRead ioErr r).init = r.init := by cases ioErr <;> rfl

/-- A result stays until the next BEGIN or READ (10_state.md R35). -/
theorem hostRegs_valid_iff (hr : i.rst = false) (hidle : r.phase = .idle) :
    (hostRegs i r).valid = true ↔
      r.valid = true ∧ ¬CommandWrite i (.command .begin) ∧ ¬CommandWrite i (.command .read) := by
  by_cases hbegin : CommandWrite i (.command .begin)
  · rw [hostRegs_command hbegin, commandRegs_begin_of_idle hidle, acceptBegin_valid]
    exact ⟨fun h => (by cases h), fun h => absurd hbegin h.2.1⟩
  by_cases hread : CommandWrite i (.command .read)
  · rw [hostRegs_command hread, commandRegs_read_of_idle hidle, acceptRead_valid]
    exact ⟨fun h => (by cases h), fun h => absurd hread h.2.2⟩
  rw [hostRegs_of_no_start hr hbegin hread]
  exact ⟨fun h => ⟨h, hbegin, hread⟩, fun h => h.1⟩

/-- In IDLE only a BEGIN with a failing pad writes INIT. -/
theorem hostRegs_init (hr : i.rst = false) (hidle : r.phase = .idle)
    (hpad : ¬(CommandWrite i (.command .begin) ∧ i.ioErr = true)) : (hostRegs i r).init = r.init := by
  by_cases hbegin : CommandWrite i (.command .begin)
  · have hworks : i.ioErr = false := by simpa [hbegin] using hpad
    rw [hostRegs_command hbegin, commandRegs_begin_of_idle hidle, hworks]
    rfl
  by_cases hread : CommandWrite i (.command .read)
  · rw [hostRegs_command hread, commandRegs_read_of_idle hidle, acceptRead_init]
  rw [hostRegs_of_no_start hr hbegin hread]

end Outcome

/-- Where the cycle is no reset, the step came from a used phase. -/
theorem used_of_step {s t : State} (h : step s = .next t) (hr : s.inputs.rst = false) : s.regs.phase.used = true := by
  obtain ⟨-, hu, -⟩ := step_cases h
  simpa [hr] using hu

/-- Settles O43: a busy state shows no error, so the error comes from a move, and that is `Fail`. -/
theorem errorLeavesTheCleanState : Obligations.ErrorLeavesTheCleanState := by
  intro s t h hstep hbusy herr
  obtain ⟨hl, -, rfl⟩ := step_cases hstep
  obtain ⟨-, hnone⟩ := h.regs.busyShowsNothing hbusy
  rw [afterCycle_regs] at herr ⊢
  cases hr : s.inputs.rst with
  | true =>
    rw [cycleRegs_reset hr] at herr
    exact absurd rfl herr
  | false =>
    rw [cycleRegs_busy hr hbusy] at herr ⊢
    have hmove := sequencerCycle_move (p := s.params) hr h.regs.phaseUsed hbusy
    obtain ⟨hcode, heq⟩ := hmove.eq_fail_of_err hnone herr
    refine ⟨hcode, ?_⟩
    rw [heq]
    rfl

/-- Settles O45: in IDLE the host alone acts, and a busy cycle whose command goes on is a move that writes no outcome. -/
theorem outcomeStaysUntilTheNextCommand : Obligations.OutcomeStaysUntilTheNextCommand := by
  intro s t hr hstep hcase
  have hu := used_of_step hstep hr
  obtain ⟨-, -, rfl⟩ := step_cases hstep
  rw [afterCycle_regs] at hcase ⊢
  obtain ⟨hidle, hbegin, hread⟩ | ⟨hbusy, hstays⟩ := hcase
  · rw [cycleRegs_idle hr hidle, hostRegs_of_no_start hr hbegin hread]
    exact ⟨rfl, rfl, rfl, rfl, rfl, rfl⟩
  · rw [cycleRegs_busy hr hbusy] at hstays ⊢
    rw [(sequencerCycle_move hr hu hbusy).eq_of_busy hstays]
    exact ⟨rfl, rfl, rfl, rfl, rfl, rfl⟩

/-- Settles O46: in IDLE an accepted BEGIN writes INIT when its pin drive fails, and of the moves only the end of BEGIN_WAIT
does. -/
theorem initChangesExactly : Obligations.InitChangesExactly := by
  intro s t hstep
  have hused := used_of_step hstep
  obtain ⟨-, -, rfl⟩ := step_cases hstep
  rw [afterCycle_regs]
  refine ⟨fun hr => ?reset, fun hidle hw hpad => ?failed, fun hr hph ht hc => ?done, fun hr hfailed hdone => ?kept⟩
  case reset => rw [cycleRegs_reset hr, resetRegs_init]
  case failed =>
    rw [cycleRegs_command_of_idle hidle hw, commandRegs_begin_of_idle hidle, hpad]
    rfl
  case done =>
    rw [cycleRegs_busy hr (by simp [hph]), hph, sequencerCycle, beginWaitCycle_ends ht hc]
  case kept =>
    by_cases hidle : s.regs.phase = .idle
    · rw [cycleRegs_idle hr hidle]
      exact hostRegs_init hr hidle fun h => hfailed ⟨hidle, h⟩
    · rw [cycleRegs_busy hr hidle]
      exact (sequencerCycle_move hr (hused hr) hidle).init_eq_or.resolve_right hdone

/-- Settles O47: VALID comes from the passing validation, and in IDLE from the state before. -/
theorem validExactly : Obligations.ValidExactly := by
  intro s t h hstep
  obtain ⟨-, -, rfl⟩ := step_cases hstep
  rw [afterCycle_regs]
  cases hr : s.inputs.rst with
  | true => simp [cycleRegs_reset hr]
  | false =>
    by_cases hidle : s.regs.phase = .idle
    · rw [cycleRegs_idle hr hidle, hostRegs_valid_iff hr hidle]
      simp [hidle]
    · obtain ⟨hinvalid, -⟩ := h.regs.busyShowsNothing hidle
      have hmove := sequencerCycle_move (p := s.params) hr h.regs.phaseUsed hidle
      rw [cycleRegs_busy hr hidle]
      simp only [hidle, false_and, and_false, or_false, true_and]
      refine ⟨hmove.validates_of_valid hinvalid, fun ⟨hph, hsum⟩ => ?_⟩
      rw [hph, sequencerCycle, validateCycle_passes hsum]
      rfl

end Sys2Proof.Machine
end

section
/-! SUPPORT. What a cycle does not depend on (20_memory.md R74; 42_capture.md section 1; 70_reset_and_hazards.md R256), the step
of a written command, and the frame of the commands (40_host_commands.md sections 1 to 3). -/

namespace Sys2Proof.Machine

/-! ### The line, the timebase and the bus -/

/-- Only a sample reads the line. -/
theorem sequencerCycle_dqIn_irrelevant {i : Inputs} {ph : Phase} (h : ¬((expectedLevel ph).isSome = true ∧ i.tick = true))
    (b : Bool) (p : Params) (r : Regs) : sequencerCycle p { i with dqIn := b } ph r = sequencerCycle p i ph r := by
  cases ph with
  | idle | beginWait | startLow | startRel | validate | unused k => rfl
  | ackLow | ackHigh | bitLow | bitHigh =>
    have ht : i.tick = false := by simpa [expectedLevel] using h
    simp only [sequencerCycle, measureCycle_noTick ht, measureCycle_noTick (i := { i with dqIn := b }) ht]

/-- Settles O52: the host's half of a cycle does not read the line, and the sequencer reads it in samples alone. -/
theorem lineReadOnlyAtSamples : Obligations.LineReadOnlyAtSamples := by
  intro s i b h
  refine step_withInputs_congr (i := { i with dqIn := b }) (j := i) rfl ?_
  have hhost : hostRegs { i with dqIn := b } s.regs = hostRegs i s.regs := hostRegs_congr rfl rfl _
  unfold cycleRegs
  rw [hhost, sequencerCycle_dqIn_irrelevant h]

/-- Without ticks and writes the registers of a wait or measurement phase stay. -/
theorem runRegs_noTick {ins : List Inputs} (h : ∀ i ∈ ins, QuietBus i ∧ i.tick = false) (p : Params) {r : Regs}
    (hu : r.phase.used = true) (hv : r.phase ≠ .validate) : runRegs p ins r = r := by
  induction ins with
  | nil => rfl
  | cons i ins ih =>
    obtain ⟨⟨hq, ht⟩, hins⟩ := List.forall_mem_cons.mp h
    rw [runRegs_cons, cycleRegs_quiet hq, sequencerCycle_noTick ht hu hv]
    exact ih hins

/-- Settles O33: no cycle of the schedule changes a register. -/
theorem noTickNoProgress : Obligations.NoTickNoProgress := by
  intro s ins rest hl hu _ hv hp hins
  exact ⟨_, run_schedule ins rest s hl hu hp, runRegs_noTick hins s.params hu hv, rfl⟩

/-- Settles O12: a write to another address is no command word. -/
theorem writesOffCmdHaveNoEffect : Obligations.WritesOffCmdHaveNoEffect := fun s _ haddr => step_withoutWrite haddr s

/-- Two busy cycles that differ in the host's bus inputs differ in the host's registers alone. -/
theorem cycleRegs_bus_congr {i j : Inputs} {r : Regs} (hbusy : r.phase ≠ .idle) (hrst : j.rst = i.rst)
    (hstrap : j.variant = i.variant) (htick : j.tick = i.tick) (hline : j.dqIn = i.dqIn) (hpad : j.ioErr = i.ioErr) (p : Params) :
    cycleRegs p j r = { cycleRegs p i r with
      ovr := (cycleRegs p j r).ovr, ill := (cycleRegs p j r).ill, conv := (cycleRegs p j r).conv } := by
  cases hr : i.rst with
  | true => rw [cycleRegs_reset (hrst.trans hr), cycleRegs_reset hr, hstrap]
  | false =>
    rw [cycleRegs_busy (hrst.trans hr) hbusy, cycleRegs_busy hr hbusy, sequencerCycle_congr htick hline hpad]

/-- Settles O54: the sequencer neither reads nor writes OVR, ILL and CONV, and a busy host writes nothing else. -/
theorem hostWriteAndSequencerDoNotCompete : Obligations.HostWriteAndSequencerDoNotCompete := by
  refine ⟨fun c s t hbusy hexec => ?order, fun s i j t u hbusy ht hu => ?bus⟩
  case order =>
    rw [exec_eq] at hexec
    cases hexec
    obtain ⟨-, -, -, hill⟩ := commandRegs_frame c s.inputs.ioErr s.regs
    rw [State.withRegs_regs, hill, ← sequencerCycle_host]
    exact congrArg _ (commandRegs_busy hbusy c s.inputs.ioErr)
  case bus =>
    obtain ⟨-, -, rfl⟩ := step_cases ht
    obtain ⟨-, -, rfl⟩ := step_cases hu
    exact cycleRegs_bus_congr (i := i) (j := { i with busWr := j.busWr, busAddr := j.busAddr, busWdata := j.busWdata })
      hbusy rfl rfl rfl rfl rfl s.params

/-! ### The step of a written command -/

/-- In a cycle with a command the sequencer acts on what `exec` leaves. -/
theorem step_command {s t : State} {c : Instr} (hl : s.params.Legal) (hu : s.regs.phase.used = true)
    (hw : CommandWrite s.inputs (.command c)) (hexec : exec c s = .next t) :
    step s = .next (afterCycle t (sequencerCycle s.params s.inputs s.regs.phase t.regs)) := by
  rw [exec_eq] at hexec
  cases hexec
  rw [step_eq hl (.inr hu), cycleRegs_noReset hw.1, hostRegs_command hw]
  rfl

theorem step_command_of_idle {s t : State} {c : Instr} (hl : s.params.Legal) (hidle : s.regs.phase = .idle)
    (hw : CommandWrite s.inputs (.command c)) (hexec : exec c s = .next t) : step s = .next (afterCycle t t.regs) := by
  rw [step_command hl (by rw [hidle]; rfl) hw hexec, hidle, sequencerCycle]

/-- `withFetchWord` of an encoded command is a write of that command. -/
theorem commandWrite_withFetchWord {c : Instr} (hc : c.wellFormed = true) (s : State) :
    CommandWrite (s.withFetchWord 32 (encode c).toNat).inputs (.command c) := by
  have hword : tableWord 32 (encode c).toNat = encode c := by
    rw [tableWord, Nat.mod_eq_of_lt (encode c).isLt, BitVec.ofNat_toNat, BitVec.setWidth_eq]
  refine ⟨rfl, rfl, rfl, ?_⟩
  rw [← decode_encode hc]
  exact congrArg decode hword

/-- Settles O5: the host's half of the cycle is `exec`, and the sequencer's half in IDLE is nothing. -/
theorem stepRunsTheDecodedCommand : Obligations.StepRunsTheDecodedCommand :=
  ⟨fun _ _ _ hl hu hw hexec => ⟨step_command hl hu hw hexec, fun hidle => step_command_of_idle hl hidle hw hexec⟩,
    fun s _ _ hl hidle hc hexec =>
      step_command_of_idle (s := s.withFetchWord 32 _) hl hidle (commandWrite_withFetchWord hc s) hexec⟩

/-- Settles O6: the three outcomes of a cycle, by the parameters, the reset and PHASE. -/
theorem stepStopsOnlyOutOfRangeOrUnused : Obligations.StepStopsOnlyOutOfRangeOrUnused := fun _ =>
  ⟨fun hl hu => ⟨_, step_eq hl hu, rfl⟩, step_unused, step_illegal⟩

/-- Settles O8: the reset registers are in IDLE, where a command is accepted at once. -/
theorem firstCycleAfterReset : Obligations.FirstCycleAfterReset := by
  intro s t hr hstep
  obtain ⟨hl, -, rfl⟩ := step_cases hstep
  rw [cycleRegs_reset hr]
  have haccept {c : Instr} (hw : CommandWrite (afterCycle s (resetRegs s.inputs.variant)).inputs (.command c)) :=
    step_command_of_idle (s := afterCycle s (resetRegs s.inputs.variant)) hl rfl hw (exec_eq c _)
  refine ⟨⟨rfl, rfl⟩, ?status, rfl, rfl, rfl, rfl, fun hw hpad => ⟨_, haccept hw, ?begins⟩,
    fun hw hpad => ⟨_, haccept hw, ?reads⟩⟩
  case status =>
    rw [busRead_status, afterCycle_regs]
    cases s.inputs.variant <;> decide
  case begins =>
    rw [hpad]
    rfl
  case reads =>
    rw [hpad]
    rfl

/-! ### The commands and their frame -/

theorem exec_begin_of_idle {s : State} (hidle : s.regs.phase = .idle) :
    exec .begin s = .next (s.withRegs (acceptBegin s.inputs.ioErr s.regs)) := by
  rw [exec_eq, commandRegs_begin_of_idle hidle]

theorem exec_read_of_idle {s : State} (hidle : s.regs.phase = .idle) :
    exec .read s = .next (s.withRegs (acceptRead s.inputs.ioErr s.regs)) := by
  rw [exec_eq, commandRegs_read_of_idle hidle]

/-- Settles O14: the two answers of the pad to BEGIN's pin drive. -/
theorem beginAccepted : Obligations.BeginAccepted := by
  intro s hidle
  rw [exec_begin_of_idle hidle]
  refine ⟨fun hpad => ?_, fun hpad => ?_⟩ <;> (rw [hpad]; rfl)

/-- Settles O15: the two answers of the pad to READ's pin drive. -/
theorem readAccepted : Obligations.ReadAccepted := by
  intro s hidle
  rw [exec_read_of_idle hidle]
  refine ⟨fun hpad => ?_, fun hpad => ?_⟩ <;> (rw [hpad]; rfl)

/-- CONV is read at address 4 alone. -/
theorem busRead_eq_of_conv_changed {s t : State} (h : t.regs = { s.regs with conv := t.regs.conv }) {a : BitVec 3}
    (ha : a ≠ 4) : busRead a t = busRead a s := by
  have ha' : a.toNat ≠ 4 := fun h4 => ha (BitVec.eq_of_toNat_eq h4)
  unfold busRead
  rw [h]
  split
  case h_4 h4 => exact absurd h4 ha'
  all_goals rfl

/-- Addresses other than 1, 2 and 3 show CONV or 0. -/
theorem busRead_eq_of_conv_eq {s t : State} (h : t.regs.conv = s.regs.conv) {a : BitVec 3} (h1 : a ≠ 1) (h2 : a ≠ 2)
    (h3 : a ≠ 3) : busRead a t = busRead a s := by
  have hne {k : BitVec 3} (hk : a ≠ k) : a.toNat ≠ k.toNat := fun he => hk (BitVec.eq_of_toNat_eq he)
  unfold busRead
  split
  case h_1 he => exact absurd he (hne h1)
  case h_2 he => exact absurd he (hne h2)
  case h_3 he => exact absurd he (hne h3)
  case h_4 => exact h
  case h_5 => rfl

/-- READ never writes INIT (10_state.md R34). -/
theorem commandRegs_read_init (ioErr : Bool) (r : Regs) : (commandRegs .read ioErr r).init = r.init := by
  by_cases hidle : r.phase = .idle
  · rw [commandRegs_read_of_idle hidle, acceptRead_init]
  · rw [commandRegs_busy_start (.inr rfl) hidle, Regs.flagOverrun_init]

theorem commandRegs_start_conv {c : Instr} (hc : c = .begin ∨ c = .read) (ioErr : Bool) (r : Regs) :
    (commandRegs c ioErr r).conv = r.conv := by
  rcases hc with rfl | rfl <;> exact commandRegs_conv_of_not_conversion (by simp) (by simp) ioErr r

theorem commandRegs_ovr_of_idle {r : Regs} (hidle : r.phase = .idle) (c : Instr) (ioErr : Bool) :
    (commandRegs c ioErr r).ovr = r.ovr := by
  rw [Bool.eq_iff_iff, commandRegs_ovr]
  simp [hidle]

/-- Settles O20: each part of the frame is a lemma on the registers the command leaves. -/
theorem commandFrame : Obligations.CommandFrame := by
  intro c s t hexec
  rw [exec_eq] at hexec
  cases hexec
  refine ⟨⟨rfl, rfl, rfl⟩, commandRegs_frame c _ _, ?nop, ?conversions, ?starts, ?readInit,
    fun hidle => commandRegs_ovr_of_idle hidle c _, fun hbusy hc => ?busy⟩
  case nop =>
    rintro rfl
    rfl
  case conversions =>
    rintro (⟨v, rfl⟩ | ⟨v, rfl⟩)
    all_goals exact ⟨rfl, fun a ha => busRead_eq_of_conv_changed (t := s.withRegs _) rfl ha⟩
  case starts =>
    intro hc
    have hconv := commandRegs_start_conv hc s.inputs.ioErr s.regs
    exact ⟨hconv, fun a h1 h2 h3 => busRead_eq_of_conv_eq hconv h1 h2 h3⟩
  case readInit =>
    rintro rfl
    exact commandRegs_read_init _ _
  case busy =>
    rw [State.withRegs_regs, commandRegs_busy_start hc hbusy]
    rfl

end Sys2Proof.Machine
end

section
/-! SUPPORT. The opcode table's masks and matches as the low half of a word (30_encoding.md R89). -/

namespace Sys2Proof

/-- The mask keeps the low half. -/
theorem mask_eq_low (w : Word) : w &&& 0x0000FFFF#32 = (w.extractLsb' 0 16).setWidth 32 := by
  apply BitVec.eq_of_toNat_eq
  have hmask : w.toNat &&& 65535 = w.toNat % 2 ^ 16 := Nat.and_two_pow_sub_one_eq_mod w.toNat 16
  rw [BitVec.toNat_and, BitVec.toNat_setWidth, BitVec.extractLsb'_toNat, Nat.shiftRight_zero]
  exact hmask.trans (Nat.mod_eq_of_lt (by omega)).symm

theorem mask_eq_iff {w : Word} {m : Half} : w &&& 0x0000FFFF#32 = m.setWidth 32 ↔ w.extractLsb' 0 16 = m := by
  rw [mask_eq_low]
  refine ⟨fun h => ?_, fun h => h ▸ rfl⟩
  simpa using congrArg (BitVec.setWidth 16) h

/-- Without an operand the match alone gives the verdict. -/
theorem decode_plain_iff {w : Word} {i : Instr} (hi : i = .nop ∨ i = .begin ∨ i = .read) :
    decode w = .command i ↔ w &&& 0x0000FFFF#32 = (opcodeMatch i).setWidth 32 := by
  rw [decode_eq_command_iff, mask_eq_iff]
  rcases hi with rfl | rfl | rfl <;> exact and_iff_left trivial

/-- A word is the encoding of the conversion it decodes to: the operand is the whole of ARG. -/
theorem encode_argOperand {w : Word} {c : Int → Instr} (hc : c = .c2f ∨ c = .f2c)
    (hlow : w.extractLsb' 0 16 = opcodeMatch (c 0)) : encode (c (argOperand w)) = w := by
  have harg : BitVec.ofInt 16 (argOperand w) = argField w := by
    rw [argOperand, BitVec.toInt_signExtend_of_le (by omega), BitVec.ofInt_toInt]
  calc encode (c (argOperand w))
    _ = argField w ++ opcodeMatch (c 0) := by
      rw [← harg]
      rcases hc with rfl | rfl <;> rfl
    _ = w := by rw [← hlow, ← word_eq_argField_append_low]

theorem decode_conversion_iff {w : Word} {c : Int → Instr} (hc : c = .c2f ∨ c = .f2c) :
    (∃ v, decode w = .command (c v) ∧ OperandFits v ∧ encode (c v) = w) ↔
      w &&& 0x0000FFFF#32 = (opcodeMatch (c 0)).setWidth 32 := by
  rw [mask_eq_iff]
  have hmatch (v : Int) : opcodeMatch (c v) = opcodeMatch (c 0) := by rcases hc with rfl | rfl <;> rfl
  have hreads (v : Int) : (c v).ReadsOperand w ↔ v = argOperand w := by rcases hc with rfl | rfl <;> rfl
  constructor
  · rintro ⟨v, hdecode, -⟩
    exact (decode_eq_command_iff.mp hdecode).1.trans (hmatch v)
  · intro hlow
    exact ⟨argOperand w, decode_eq_command_iff.mpr ⟨hlow.trans (hmatch _).symm, (hreads _).mpr rfl⟩, argOperand_fits w,
      encode_argOperand hc hlow⟩

/-- RSV and OP as numbers are the quotient and the remainder of the low half by 8. -/
theorem decode_illegal_iff {w : Word} : (∃ why, decode w = .illegal why) ↔ 4 < (w &&& 0x0000FFFF#32).toNat := by
  have hlow := (w.extractLsb' 0 16).isLt
  rw [exists_decode_eq_illegal_iff, exists_decode_eq_command_iff, rsvField_eq_extractLsb'_low, opField_eq_extractLsb'_low,
    mask_eq_low, ← BitVec.toNat_inj, BitVec.toNat_setWidth, Nat.mod_eq_of_lt (by omega)]
  generalize w.extractLsb' 0 16 = low at hlow ⊢
  simp only [BitVec.extractLsb'_toNat, Nat.shiftRight_eq_div_pow, BitVec.ofNat_eq_ofNat, BitVec.toNat_ofNat]
  omega

/-- Settles O3: under the mask stands the low half, which selects the command; the rest of a conversion's word is its operand. -/
theorem opcodeTableSelectsTheCommands : Obligations.OpcodeTableSelectsTheCommands := fun _ =>
  ⟨decode_plain_iff (.inl rfl), decode_plain_iff (.inr (.inl rfl)), decode_plain_iff (.inr (.inr rfl)),
    decode_conversion_iff (.inl rfl), decode_conversion_iff (.inr rfl), decode_illegal_iff⟩

/-- Settles O4: the decoder runs on each of the nine words. -/
theorem specWordsDecode : Obligations.SpecWordsDecode := by
  unfold Obligations.SpecWordsDecode
  decide

end Sys2Proof
end

section
/-! SUPPORT. Runs of the sequencer over a schedule, whatever the host writes meanwhile: the wait phases by their ticks
(41_signalling.md R136), and the measurement phases by the samples of the line (42_capture.md R157, R159). -/

namespace Sys2Proof.Machine

/-! ### The registers without the host's three -/

/-- The registers with OVR, ILL and CONV cleared: what a busy sequencer sees and writes (20_memory.md R74). -/
def Regs.blind (r : Regs) : Regs := { r with ovr := false, ill := false, conv := 0 }

@[simp] theorem Regs.blind_cnt (r : Regs) : r.blind.cnt = r.cnt := rfl

/-- A busy cycle without reset, as far as the sequencer sees it. -/
theorem cycleRegs_blind {i : Inputs} {r : Regs} (hr : i.rst = false) (hbusy : r.phase ≠ .idle) (p : Params) :
    (cycleRegs p i r).blind = sequencerCycle p i r.phase r.blind := by
  rw [cycleRegs_busy hr hbusy]
  exact (sequencerCycle_host p i r.phase r false false 0).symm

/-! ### The wait phases -/

section Wait

variable {p : Params} {r : Regs} {n : Nat}

theorem cycleRegs_waits {i : Inputs} (hr : i.rst = false) (hwait : waitLength p r.variant r.phase = some n)
    (hc : r.cnt + tickCount [i] < n) : (cycleRegs p i r).blind = { r.blind with cnt := r.cnt + tickCount [i] } := by
  rw [cycleRegs_blind hr (Phase.ne_of_waitLength hwait rfl)]
  cases ht : i.tick with
  | false =>
    have hvalidate : r.phase ≠ .validate := Phase.ne_of_waitLength hwait rfl
    rw [sequencerCycle_noTick ht (Phase.used_of_waitLength hwait) hvalidate]
    simp [ht, Regs.blind]
  | true =>
    have hone : tickCount [i] = 1 := by simp [ht]
    rw [hone] at hc ⊢
    exact sequencerCycle_waits (r := r.blind) ht hwait hc

/-- Short of its last tick a wait only counts. -/
theorem runRegs_waits {ins : List Inputs} (hnr : NoReset ins) (hwait : waitLength p r.variant r.phase = some n)
    (hc : r.cnt + tickCount ins < n) : (runRegs p ins r).blind = { r.blind with cnt := r.cnt + tickCount ins } := by
  induction ins generalizing r with
  | nil => rfl
  | cons i ins ih =>
    obtain ⟨hi, hins⟩ := List.forall_mem_cons.mp hnr
    have hcount : tickCount (i :: ins) = tickCount [i] + tickCount ins := tickCount_append [i] ins
    rw [hcount, ← Nat.add_assoc] at hc ⊢
    have hcycle := cycleRegs_waits hi hwait (Nat.lt_of_le_of_lt (Nat.le_add_right ..) hc)
    have hphase : (cycleRegs p i r).phase = r.phase := (congrArg Regs.phase hcycle :)
    have hvariant : (cycleRegs p i r).variant = r.variant := (congrArg Regs.variant hcycle :)
    have hcnt : (cycleRegs p i r).cnt = r.cnt + tickCount [i] := (congrArg Regs.cnt hcycle :)
    rw [runRegs_cons, ih hins (by rw [hphase, hvariant, hwait]) (by rw [hcnt]; exact hc), hcycle, hcnt]

/-- The last tick of a wait runs the rule of the phase's end. -/
theorem runRegs_wait_ends {before : List Inputs} {last : Inputs} (hnr : NoReset (before ++ [last]))
    (hwait : waitLength p r.variant r.phase = some n) (ht : last.tick = true) (hc : r.cnt + tickCount (before ++ [last]) = n) :
    (runRegs p (before ++ [last]) r).blind =
      sequencerCycle p last r.phase { r.blind with cnt := r.cnt + tickCount before } ∧ r.cnt + tickCount before + 1 = n := by
  obtain ⟨hbefore, hlast⟩ := List.forall_mem_append.mp hnr
  have hcount : r.cnt + tickCount before + 1 = n := by simpa [ht, Nat.add_assoc] using hc
  have hrun := runRegs_waits hbefore hwait (by omega)
  have hphase : (runRegs p before r).phase = r.phase := (congrArg Regs.phase hrun :)
  refine ⟨?_, hcount⟩
  rw [runRegs_append, ← hrun, ← hphase]
  have hr : last.rst = false := hlast last (List.mem_singleton_self last)
  exact cycleRegs_blind hr (hphase ▸ Phase.ne_of_waitLength hwait rfl) p

end Wait

/-- Settles O24: the wait counts its ticks, and its last tick runs the rule of the phase's end. -/
theorem waitPhasesEndAtTheNthTick : Obligations.WaitPhasesEndAtTheNthTick := by
  intro s n ins rest hl hwait hcnt hp hnr
  have hrun := run_schedule ins rest s hl (Phase.used_of_waitLength hwait) hp
  refine ⟨fun hc => ?counts, fun last hlast hc ht => ?ends⟩
  case counts =>
    have hblind := runRegs_waits hnr hwait (by rw [hcnt, Nat.zero_add]; exact hc)
    rw [hcnt, Nat.zero_add] at hblind
    exact ⟨_, hrun, rfl, (congrArg Regs.phase hblind :), (congrArg Regs.cnt hblind :), (congrArg Regs.dqLow hblind :)⟩
  case ends =>
    obtain ⟨before, rfl⟩ := List.getLast?_eq_some_iff.mp hlast
    obtain ⟨hblind, hcount⟩ := runRegs_wait_ends hnr hwait ht (by rw [hcnt, Nat.zero_add]; exact hc)
    refine ⟨_, hrun, rfl, ?_⟩
    cases hph : s.regs.phase with
    | beginWait =>
      rw [hph] at hwait hblind
      cases hwait
      rw [sequencerCycle, beginWaitCycle_ends ht hcount] at hblind
      exact ⟨(congrArg Regs.cnt hblind :), fun _ => ⟨(congrArg Regs.phase hblind :), (congrArg Regs.init hblind :)⟩, nofun,
        nofun, nofun⟩
    | startLow =>
      rw [hph, waitLength_startLow] at hwait
      cases hwait
      rw [hph, sequencerCycle] at hblind
      cases hpad : last.ioErr with
      | false =>
        rw [startLowCycle_releases ht hpad hcount] at hblind
        exact ⟨(congrArg Regs.cnt hblind :), nofun,
          fun _ _ => ⟨(congrArg Regs.phase hblind :), (congrArg Regs.dqLow hblind :)⟩, nofun, nofun⟩
      | true =>
        rw [startLowCycle_fails ht hpad hcount] at hblind
        exact ⟨(congrArg Regs.cnt hblind :), nofun, nofun, fun _ _ => ⟨(congrArg Regs.phase hblind :),
          (congrArg Regs.dqLow hblind :), (congrArg Regs.err hblind :)⟩, nofun⟩
    | startRel =>
      rw [hph] at hwait hblind
      cases hwait
      rw [sequencerCycle, startRelCycle_ends ht hcount] at hblind
      exact ⟨(congrArg Regs.cnt hblind :), nofun, nofun, nofun, fun _ => (congrArg Regs.phase hblind :)⟩
    | _ =>
      rw [hph] at hwait
      cases hwait

/-! ### The samples of the line -/

theorem lineSamples_cons_tick {i : Inputs} (ht : i.tick = true) (ins : List Inputs) :
    lineSamples (i :: ins) = i.dqIn :: lineSamples ins := by
  simp [lineSamples, ht]

theorem lineSamples_cons_noTick {i : Inputs} (ht : i.tick = false) (ins : List Inputs) :
    lineSamples (i :: ins) = lineSamples ins := by
  simp [lineSamples, ht]

theorem lineSamples_append (ins ins' : List Inputs) : lineSamples (ins ++ ins') = lineSamples ins ++ lineSamples ins' := by
  simp [lineSamples]

/-- The ports of a tick cycle with a working pad, no write, and this sample. -/
def samplePorts (b : Bool) : Inputs where
  rst := false
  variant := .modelA
  tick := true
  dqIn := b
  ioErr := false
  busWr := false
  busAddr := 0
  busWdata := 0

/-- The registers after a sample of the line. -/
def sampleRegs (p : Params) (b : Bool) (r : Regs) : Regs := sequencerCycle p (samplePorts b) r.phase r

section Samples

variable {p : Params} {r : Regs}

theorem sequencerCycle_eq_sampleRegs {i : Inputs} (ht : i.tick = true) (hpad : i.ioErr = false) (p : Params) (r : Regs) :
    sequencerCycle p i r.phase r = sampleRegs p i.dqIn r :=
  sequencerCycle_congr (j := samplePorts i.dqIn) ht rfl hpad p r.phase r

theorem sampleRegs_counts {b : Bool} (hlevel : expectedLevel r.phase = some b) (hc : r.cnt + 1 ≤ p.maxCycles) :
    sampleRegs p b r = { r with cnt := r.cnt + 1 } :=
  (sequencerCycle_measures hlevel _).trans (measureCycle_counts (i := samplePorts b) rfl rfl hc _)

theorem sampleRegs_timeout {b : Bool} (hlevel : expectedLevel r.phase = some b) (hc : r.cnt + 1 > p.maxCycles) :
    sampleRegs p b r = r.fail .timeout :=
  (sequencerCycle_measures hlevel _).trans (measureCycle_timeout (i := samplePorts b) rfl rfl hc _)

theorem sampleRegs_ends {b : Bool} (hlevel : expectedLevel r.phase = some (!b)) : sampleRegs p b r = pulseEnd p r :=
  (sequencerCycle_measures hlevel _).trans (measureCycle_ends (i := samplePorts b) rfl rfl (by simp [samplePorts]) p _ r)

end Samples

/-- These samples lead through measurement phases alone. -/
inductive MeasureRun (p : Params) : Regs → List Bool → Regs → Prop
  | nil {r : Regs} : (expectedLevel r.phase).isSome = true → MeasureRun p r [] r
  | cons {r r' : Regs} {b : Bool} {bs : List Bool} : (expectedLevel r.phase).isSome = true →
      MeasureRun p (sampleRegs p b r) bs r' → MeasureRun p r (b :: bs) r'

section MeasureRun

variable {p : Params} {r r' : Regs}

theorem MeasureRun.start {bs : List Bool} (h : MeasureRun p r bs r') : (expectedLevel r.phase).isSome = true := by
  cases h with
  | nil hr => exact hr
  | cons hr => exact hr

theorem MeasureRun.append {r'' : Regs} {bs bs' : List Bool} (h : MeasureRun p r bs r') (h' : MeasureRun p r' bs' r'') :
    MeasureRun p r (bs ++ bs') r'' := by
  induction h with
  | nil => exact h'
  | cons hr _ ih => exact .cons hr (ih h')

theorem busy_of_measuring (h : (expectedLevel r.phase).isSome = true) : r.phase ≠ .idle := fun hi => by
  rw [hi] at h
  cases h

theorem cycleRegs_noTick_blind {i : Inputs} (hr : i.rst = false) (ht : i.tick = false)
    (h : (expectedLevel r.phase).isSome = true) : (cycleRegs p i r).blind = r.blind := by
  obtain ⟨level, hlevel⟩ := Option.isSome_iff_exists.mp h
  rw [cycleRegs_blind hr (busy_of_measuring h)]
  exact sequencerCycle_noTick ht (Phase.used_of_expectedLevel hlevel) (Phase.ne_of_expectedLevel hlevel rfl) p _

theorem cycleRegs_sample_blind {i : Inputs} (hr : i.rst = false) (ht : i.tick = true) (hpad : i.ioErr = false)
    (h : (expectedLevel r.phase).isSome = true) : (cycleRegs p i r).blind = sampleRegs p i.dqIn r.blind :=
  (cycleRegs_blind hr (busy_of_measuring h) p).trans (sequencerCycle_eq_sampleRegs ht hpad p r.blind)

/-- Of a schedule in the measurement phases only the samples matter. -/
theorem MeasureRun.runRegs_blind {ins : List Inputs} (hnr : NoReset ins) (hpad : PadWorks ins)
    (h : MeasureRun p r.blind (lineSamples ins) r') : (runRegs p ins r).blind = r' := by
  induction ins generalizing r with
  | nil =>
    cases h
    rfl
  | cons i ins ih =>
    obtain ⟨hi, hins⟩ := List.forall_mem_cons.mp hnr
    obtain ⟨hpadi, hpads⟩ := List.forall_mem_cons.mp hpad
    rw [runRegs_cons]
    cases ht : i.tick with
    | false =>
      rw [lineSamples_cons_noTick ht, ← cycleRegs_noTick_blind (r := r) hi ht h.start] at h
      exact ih hins hpads h
    | true =>
      rw [lineSamples_cons_tick ht] at h
      obtain _ | ⟨hstart, hrest⟩ := h
      rw [← cycleRegs_sample_blind (r := r) hi ht (hpadi ht) hstart] at hrest
      exact ih hins hpads hrest

/-- The last sample of a schedule may leave the measurement phases. -/
theorem MeasureRun.runRegs_last_blind {ins : List Inputs} {bs : List Bool} {b : Bool} (hnr : NoReset ins) (hpad : PadWorks ins)
    (hend : endsOnTick ins = true) (hline : lineSamples ins = bs ++ [b]) (h : MeasureRun p r.blind bs r')
    (hmeasures : (expectedLevel r'.phase).isSome = true) : (runRegs p ins r).blind = sampleRegs p b r' := by
  obtain ⟨before, last, rfl, ht⟩ := exists_append_of_endsOnTick hend
  rw [lineSamples_append, lineSamples_cons_tick ht] at hline
  obtain ⟨rfl, hb⟩ := List.append_inj' hline rfl
  obtain ⟨rfl, -⟩ := List.cons.inj hb
  obtain ⟨hbefore, hlast⟩ := List.forall_mem_append.mp hnr
  obtain ⟨hpads, hpadlast⟩ := List.forall_mem_append.mp hpad
  have hrun := h.runRegs_blind hbefore hpads
  have hphase : (runRegs p before r).phase = r'.phase := (congrArg Regs.phase hrun :)
  rw [runRegs_append, ← hrun]
  have hr : last.rst = false := hlast last (List.mem_singleton_self last)
  have hworks : last.ioErr = false := hpadlast last (List.mem_singleton_self last) ht
  exact cycleRegs_sample_blind hr ht hworks (hphase ▸ hmeasures)

/-- A pulse that goes on is counted. -/
theorem MeasureRun.pulse {level : Bool} {n : Nat} (hlevel : expectedLevel r.phase = some level) (hc : r.cnt + n ≤ p.maxCycles) :
    MeasureRun p r (Machine.pulse level n) { r with cnt := r.cnt + n } := by
  have hstart : (expectedLevel r.phase).isSome = true := by rw [hlevel]; rfl
  induction n generalizing r with
  | zero => exact .nil hstart
  | succ n ih =>
    refine .cons hstart ?_
    rw [sampleRegs_counts hlevel (by omega)]
    have hrest := ih (r := { r with cnt := r.cnt + 1 }) hlevel (by dsimp only; omega) hstart
    rwa [show r.cnt + 1 + n = r.cnt + (n + 1) by omega] at hrest

end MeasureRun

/-- Settles O30: the samples are counted up to MAX_CYCLES, and the next one is the Timeout. -/
theorem constantLineTimesOut : Obligations.ConstantLineTimesOut := by
  intro s level n ins rest hl hlevel hmax hp hnr hpad hline
  have hrun := run_schedule ins rest s hl (Phase.used_of_expectedLevel hlevel) hp
  have hsome : (expectedLevel s.regs.phase).isSome = true := by rw [hlevel]; rfl
  refine ⟨fun hc => ?counts, fun hc hend => ?times_out⟩
  case counts =>
    have hpulse : MeasureRun s.params s.regs.blind (pulse level n) _ := .pulse hlevel hc
    have hblind := (hline ▸ hpulse).runRegs_blind hnr hpad
    exact ⟨_, hrun, rfl, (congrArg Regs.phase hblind :), (congrArg Regs.cnt hblind :)⟩
  case times_out =>
    obtain ⟨m, rfl⟩ : ∃ m, n = m + 1 := ⟨n - 1, by omega⟩
    have hpulse : MeasureRun s.params s.regs.blind (pulse level m) _ := .pulse hlevel (by dsimp only [Regs.blind_cnt]; omega)
    have hsamples : lineSamples ins = pulse level m ++ [level] := hline.trans List.replicate_succ'
    have hover : s.regs.cnt + m + 1 > s.params.maxCycles := by omega
    have htimeout := sampleRegs_timeout (r := { s.regs.blind with cnt := s.regs.cnt + m }) hlevel hover
    have hblind := (hpulse.runRegs_last_blind hnr hpad hend hsamples hsome).trans htimeout
    exact ⟨_, hrun, rfl, (congrArg Regs.phase hblind :), (congrArg Regs.err hblind :), (congrArg Regs.valid hblind :),
      (congrArg Regs.cnt hblind :)⟩

end Sys2Proof.Machine
end

section
/-! SUPPORT. A capture from the entry of ACK_LOW to VALIDATE, pulse by pulse and bit by bit (42_capture.md R153, R154, R157). -/

namespace Sys2Proof.Machine

/-- FRAME after the first k bits, of the widths `high`, received into the frame f (10_state.md R31). -/
def received (p : Params) (high : Nat → Nat) (f : Frame) : Nat → Frame
  | 0 => f
  | k + 1 => ((received p high f k).extractLsb' 0 39 ++ BitVec.ofBool (dataBit p (high k)) : BitVec 40)

/-- Bit m in the order of reception stands k - 1 - m places above FRAME[0] after k bits. -/
theorem received_getLsbD (p : Params) (high : Nat → Nat) (f : Frame) {k m : Nat} (hk : k ≤ 40) (hm : m < k) :
    (received p high f k).getLsbD (k - 1 - m) = dataBit p (high m) := by
  induction k with
  | zero => cases hm
  | succ k ih =>
    rw [received, shiftIn_getLsbD]
    obtain hlt | rfl := Nat.lt_succ_iff_lt_or_eq.mp hm
    · rw [if_neg (by omega), show k + 1 - 1 - m - 1 = k - 1 - m by omega, ih (by omega) hlt]
      simp only [Bool.and_eq_right_iff_imp, decide_eq_true_eq]
      omega
    · simp

section Capture

variable {p : Params} {r : Regs}

/-- The pulse after the one being measured: its first sample ends that one (42_capture.md R153). -/
theorem MeasureRun.next_pulse {level : Bool} {n : Nat} (hlevel : expectedLevel r.phase = some (!level))
    (hnext : expectedLevel (pulseEnd p r).phase = some level) (hone : (pulseEnd p r).cnt = 1) (hpos : 1 ≤ n)
    (hmax : n ≤ p.maxCycles) : MeasureRun p r (Machine.pulse level n) { pulseEnd p r with cnt := n } := by
  obtain ⟨m, rfl⟩ : ∃ m, n = m + 1 := ⟨n - 1, by omega⟩
  refine .cons (by rw [hlevel]; rfl) ?_
  rw [sampleRegs_ends hlevel]
  have hrest : MeasureRun p (pulseEnd p r) (Machine.pulse level m) _ := .pulse hnext (by omega)
  rwa [hone, Nat.add_comm 1 m] at hrest

/-- A separator and a data pulse after a high pulse that is no end of the capture. -/
theorem MeasureRun.bit {lo hi : Nat} (hlevel : expectedLevel r.phase = some true) (hphase : (pulseEnd p r).phase = .bitLow)
    (hone : (pulseEnd p r).cnt = 1) (hlo : 1 ≤ lo ∧ lo ≤ p.maxCycles) (hhi : 1 ≤ hi ∧ hi ≤ p.maxCycles) :
    MeasureRun p r (Machine.pulse false lo ++ Machine.pulse true hi) { pulseEnd p r with phase := .bitHigh, cnt := hi } := by
  have hlow : MeasureRun p r (Machine.pulse false lo) _ := .next_pulse hlevel (by rw [hphase]; rfl) hone hlo.1 hlo.2
  have hend : pulseEnd p { pulseEnd p r with cnt := lo } = { pulseEnd p r with phase := .bitHigh, cnt := 1 } := by
    rw [pulseEnd, hphase]
    rfl
  have hhigh : MeasureRun p { pulseEnd p r with cnt := lo } (Machine.pulse true hi) _ :=
    .next_pulse (by dsimp only; rw [hphase]; rfl) (by rw [hend]; rfl) (by rw [hend]) hhi.1 hhi.2
  rw [hend] at hhigh
  exact hlow.append hhigh

/-- After k + 1 bits of the waveform the last of them is still being measured, and the k before it are in FRAME. -/
theorem MeasureRun.bits {low high : Nat → Nat} (hphase : r.phase = .ackHigh) (hidx : r.bitIdx = 0)
    (hwidths : ∀ k, k < 40 → 1 ≤ low k ∧ low k ≤ p.maxCycles ∧ 1 ≤ high k ∧ high k ≤ p.maxCycles) {k : Nat}
    (hk : k < 40) :
    MeasureRun p r ((List.range (k + 1)).flatMap (fun k => Machine.pulse false (low k) ++ Machine.pulse true (high k)))
      { r with phase := .bitHigh, cnt := high k, bitIdx := BitVec.ofNat 6 k, frame := received p high r.frame k } := by
  induction k with
  | zero =>
    obtain ⟨hlow, hlow', hhigh, hhigh'⟩ := hwidths 0 hk
    have hend : pulseEnd p r = r.enter .bitLow 1 := by rw [pulseEnd, hphase]
    have hbit : MeasureRun p r (Machine.pulse false (low 0) ++ Machine.pulse true (high 0)) _ :=
      .bit (by rw [hphase]; rfl) (by rw [hend]; rfl) (by rw [hend]; rfl) ⟨hlow, hlow'⟩ ⟨hhigh, hhigh'⟩
    rw [hend, Regs.enter, hidx] at hbit
    simpa [received] using hbit
  | succ k ih =>
    obtain ⟨hlow, hlow', hhigh, hhigh'⟩ := hwidths (k + 1) hk
    have hbits := ih (by omega)
    generalize hr' : ({ r with
      phase := .bitHigh, cnt := high k, bitIdx := BitVec.ofNat 6 k, frame := received p high r.frame k } : Regs) = r' at hbits
    have hend : pulseEnd p r' = (r'.shiftIn (dataBit p r'.cnt)).enter .bitLow 1 := by
      subst hr'
      refine dataPulseEnd_more ?_ p
      rw [BitVec.toNat_ofNat]
      omega
    have hlevel : expectedLevel r'.phase = some true := by subst hr'; rfl
    have hbit : MeasureRun p r' (Machine.pulse false (low (k + 1)) ++ Machine.pulse true (high (k + 1))) _ :=
      .bit hlevel (by rw [hend]; rfl) (by rw [hend]; rfl) ⟨hlow, hlow'⟩ ⟨hhigh, hhigh'⟩
    rw [List.range_succ, List.flatMap_append, List.flatMap_singleton]
    have hidx' : BitVec.ofNat 6 k + 1 = BitVec.ofNat 6 (k + 1) := (BitVec.ofNat_add k 1).symm
    have htarget : ({ pulseEnd p r' with phase := .bitHigh, cnt := high (k + 1) } : Regs) =
        { r with
          phase := .bitHigh, cnt := high (k + 1), bitIdx := BitVec.ofNat 6 (k + 1),
          frame := received p high r.frame (k + 1) } := by
      rw [hend, ← hidx']
      subst hr'
      rfl
    exact hbits.append (htarget ▸ hbit)

/-- The whole waveform but for the sample that ends it. -/
theorem MeasureRun.capture {ackLow ackHigh : Nat} {low high : Nat → Nat} (hphase : r.phase = .ackLow) (hcnt : r.cnt = 0)
    (hidx : r.bitIdx = 0) (hackLow : ackLow ≤ p.maxCycles) (hackHigh : 1 ≤ ackHigh ∧ ackHigh ≤ p.maxCycles)
    (hwidths : ∀ k, k < 40 → 1 ≤ low k ∧ low k ≤ p.maxCycles ∧ 1 ≤ high k ∧ high k ≤ p.maxCycles) :
    MeasureRun p r (Machine.pulse false ackLow ++ Machine.pulse true ackHigh ++
        (List.range 40).flatMap (fun k => Machine.pulse false (low k) ++ Machine.pulse true (high k)))
      { r with phase := .bitHigh, cnt := high 39, bitIdx := 39, frame := received p high r.frame 39 } := by
  have hfirst : MeasureRun p r (Machine.pulse false ackLow) _ := .pulse (by rw [hphase]; rfl) (by omega)
  rw [hcnt, Nat.zero_add] at hfirst
  have hend : pulseEnd p { r with cnt := ackLow } = { r with phase := .ackHigh, cnt := 1 } := by
    rw [pulseEnd, hphase]
    rfl
  have hsecond : MeasureRun p { r with cnt := ackLow } (Machine.pulse true ackHigh) _ :=
    .next_pulse (by dsimp only; rw [hphase]; rfl) (by rw [hend]; rfl) (by rw [hend]) hackHigh.1 hackHigh.2
  rw [hend] at hsecond
  exact (hfirst.append hsecond).append
    (.bits (r := { r with phase := .ackHigh, cnt := ackHigh }) (k := 39) rfl hidx hwidths (by decide))

end Capture

/-- Settles O29: the samples but the last lead to the fortieth data pulse, which the last sample ends. -/
theorem captureReadsTheRunLengths : Obligations.CaptureReadsTheRunLengths := by
  intro s ackLow ackHigh low high ins rest hl hph hcnt hidx hackLow hack1 hackHigh hwidths hp hnr hpad hend hline
  have hu : s.regs.phase.used = true := by rw [hph]; rfl
  have hrun := run_schedule ins rest s hl hu hp
  have hcapture := MeasureRun.capture (p := s.params) (r := s.regs.blind) hph hcnt hidx hackLow ⟨hack1, hackHigh⟩ hwidths
  have hblind := hcapture.runRegs_last_blind hnr hpad hend hline rfl
  rw [sampleRegs_ends rfl, pulseEnd] at hblind
  replace hblind := hblind.trans (dataPulseEnd_last rfl s.params)
  refine ⟨_, hrun, rfl, (congrArg Regs.phase hblind :), (congrArg Regs.cnt hblind :), (congrArg Regs.bitIdx hblind :),
    fun k hk => ?_⟩
  have hframe : (runRegs s.params ins s.regs).frame = received s.params high s.regs.frame 40 := (congrArg Regs.frame hblind :)
  rw [hframe]
  exact received_getLsbD s.params high s.regs.frame le_rfl hk

end Sys2Proof.Machine
end

section
/-! SUPPORT. Two measures of a READ's progress in ticks: the fewest ticks it can have taken to where it is, which a tick raises
by at most 1, and the most, which a tick raises by at least 1 until the READ ends (70_reset_and_hazards.md R271, R272). -/

namespace Sys2Proof.Machine

/-! ### Progress -/

/-- The number of pulses that ended before the one being measured, 82 of them in VALIDATE. -/
def pulseIndex (r : Regs) : Nat :=
  match r.phase with
  | .ackHigh => 1
  | .bitLow => 2 + 2 * r.bitIdx.toNat
  | .bitHigh => 3 + 2 * r.bitIdx.toNat
  | .validate => 82
  | _ => 0

/-- The fewest ticks from the acceptance of a READ to these registers, each pulse being one sample long; 0 outside a READ. -/
def fewestTicks (p : Params) (r : Regs) : Nat :=
  match r.phase with
  | .startLow => r.cnt
  | .startRel => p.hold r.variant + r.cnt
  | .ackLow | .ackHigh | .bitLow | .bitHigh | .validate => p.hold r.variant + p.releaseTicks + pulseIndex r
  | _ => 0

/-- The ticks in which a READ must have reached VALIDATE or ended (70_reset_and_hazards.md R271). -/
def readTicks (p : Params) (v : Variant) : Nat := p.hold v + p.releaseTicks + 82 * p.maxCycles + 1

/-- The most ticks from the acceptance of a READ to these registers, each pulse being MAX_CYCLES samples long. -/
def mostTicks (p : Params) (r : Regs) : Nat :=
  match r.phase with
  | .startLow => r.cnt
  | .startRel => p.hold r.variant + r.cnt
  | .ackLow | .ackHigh | .bitLow | .bitHigh => p.hold r.variant + p.releaseTicks + pulseIndex r * p.maxCycles + r.cnt
  | _ => readTicks p r.variant

/-- A READ is running. -/
def Phase.reads : Phase → Bool
  | .startLow | .startRel | .ackLow | .ackHigh | .bitLow | .bitHigh | .validate => true
  | _ => false

theorem reads_of_measuring {ph : Phase} (h : (expectedLevel ph).isSome = true) : ph.reads = true := by
  cases ph with
  | ackLow | ackHigh | bitLow | bitHigh => rfl
  | _ => cases h

section Progress

variable {p : Params} {i : Inputs} {r : Regs}

/-- The phases of a capture: the measurement phases and VALIDATE. -/
theorem fewestTicks_of_capture (h : r.phase = .validate ∨ (expectedLevel r.phase).isSome = true) :
    fewestTicks p r = p.hold r.variant + p.releaseTicks + pulseIndex r := by
  cases hph : r.phase with
  | ackLow | ackHigh | bitLow | bitHigh | validate => simp only [fewestTicks, hph]
  | _ => simp [hph, expectedLevel] at h

theorem pulseIndex_validate (h : r.phase = .validate) : pulseIndex r = 82 := by
  rw [pulseIndex, h]

theorem mostTicks_of_measuring (h : (expectedLevel r.phase).isSome = true) :
    mostTicks p r = p.hold r.variant + p.releaseTicks + pulseIndex r * p.maxCycles + r.cnt := by
  cases hph : r.phase with
  | ackLow | ackHigh | bitLow | bitHigh => simp only [mostTicks, hph]
  | _ => simp [hph, expectedLevel] at h

theorem Regs.Inv.cnt_le_of_measuring (h : r.Inv p) (hmeasures : (expectedLevel r.phase).isSome = true) :
    r.cnt ≤ p.maxCycles := by
  have hcnt := h.cntInPhase
  cases hph : r.phase with
  | ackLow =>
    simp only [Machine.cntInPhase, hph, decide_eq_true_eq] at hcnt
    exact hcnt
  | ackHigh | bitLow | bitHigh =>
    simp only [Machine.cntInPhase, hph, decide_eq_true_eq] at hcnt
    exact hcnt.2
  | _ => simp [hph, expectedLevel] at hmeasures

theorem Regs.Inv.pulseIndex_lt_of_measuring (h : r.Inv p) (hmeasures : (expectedLevel r.phase).isSome = true) :
    pulseIndex r < 82 := by
  have hbits := h.bitsInPhase
  cases hph : r.phase with
  | ackLow | ackHigh =>
    simp only [pulseIndex, hph]
    decide
  | bitLow | bitHigh =>
    simp only [Machine.bitsInPhase, hph, decide_eq_true_eq] at hbits
    simp only [pulseIndex, hph]
    omega
  | _ => simp [hph, expectedLevel] at hmeasures

/-- The end of a pulse is the next pulse with its first sample, or the end of the capture. -/
theorem pulseEnd_next (p : Params) (h : (expectedLevel r.phase).isSome = true) :
    (expectedLevel (pulseEnd p r).phase).isSome = true ∧ (pulseEnd p r).cnt = 1 ∨ (pulseEnd p r).phase = .validate := by
  unfold pulseEnd
  cases hph : r.phase with
  | ackLow | ackHigh | bitLow => exact .inl ⟨rfl, rfl⟩
  | bitHigh =>
    by_cases hlast : r.bitIdx.toNat + 1 = 40
    · exact .inr (congrArg Regs.phase (dataPulseEnd_last hlast p))
    · exact .inl (by rw [dataPulseEnd_more hlast]; exact ⟨rfl, rfl⟩)
  | _ => simp [hph, expectedLevel] at h

theorem pulseIndex_pulseEnd (h : r.Inv p) (hmeasures : (expectedLevel r.phase).isSome = true) :
    pulseIndex (pulseEnd p r) = pulseIndex r + 1 := by
  have hbits := h.bitsInPhase
  unfold pulseEnd
  cases hph : r.phase with
  | ackLow => simp only [pulseIndex, hph, Regs.enter_phase]
  | ackHigh | bitLow =>
    simp only [bitsInPhase, hph, decide_eq_true_eq] at hbits
    simp only [pulseIndex, hph, Regs.enter_phase, Regs.enter_bitIdx]
    omega
  | bitHigh =>
    simp only [bitsInPhase, hph, decide_eq_true_eq] at hbits
    have hidx : (r.bitIdx + 1).toNat = r.bitIdx.toNat + 1 := by bv_omega
    by_cases hlast : r.bitIdx.toNat + 1 = 40
    · rw [dataPulseEnd_last hlast]
      simp only [pulseIndex, hph, Regs.enter_phase]
      omega
    · rw [dataPulseEnd_more hlast]
      simp only [pulseIndex, hph, Regs.enter_phase, Regs.enter_bitIdx, Regs.shiftIn_bitIdx, hidx]
      omega
  | _ => simp [hph, expectedLevel] at hmeasures

theorem isSome_of_expectedLevel {level : Bool} (h : expectedLevel r.phase = some level) :
    (expectedLevel r.phase).isSome = true := by
  rw [h]
  rfl

theorem pulseEnd_variant (p : Params) (r : Regs) : (pulseEnd p r).variant = r.variant := by rw [pulseEnd_eq]

/-- A wait that goes on has room for its tick in CNT. -/
theorem Regs.Inv.setCnt_of_waits {n : Nat} (h : r.Inv p) (hwait : waitLength p r.variant r.phase = some n) :
    r.setCnt p (r.cnt + 1) = { r with cnt := r.cnt + 1 } := by
  have hlt := (cntInPhase_iff_of_wait hwait).mp h.cntInPhase
  exact Regs.setCnt_of_lt (Nat.lt_of_le_of_lt hlt (waitLength_lt hwait)) r

/-! ### The fewest ticks -/

/-- In IDLE, BEGIN_WAIT and the first cycle of START_LOW no tick has passed. -/
theorem fewestTicks_hostRegs (hr : i.rst = false) (hidle : r.phase = .idle) : fewestTicks p (hostRegs i r) = 0 := by
  obtain ⟨-, hnone⟩ | ⟨c, hw⟩ | ⟨why, hw⟩ := host_cases hr
  · rw [hnone, fewestTicks, hidle]
  · rw [hostRegs_command hw]
    cases c with
    | nop | c2f v | f2c v => simp [commandRegs, fewestTicks, hidle]
    | begin =>
      rw [commandRegs_begin_of_idle hidle, fewestTicks, acceptBegin_phase hidle]
      cases i.ioErr <;> rfl
    | read =>
      rw [commandRegs_read_of_idle hidle, fewestTicks, acceptRead_phase hidle]
      cases i.ioErr <;> rfl
  · rw [hostRegs_illegal hw, fewestTicks, Regs.flagIllegal_phase, hidle]

/-- A tick raises it by at most 1. -/
theorem SequencerMove.fewestTicks_le {r' : Regs} (h : r.Inv p) (hm : SequencerMove p i r r') :
    fewestTicks p r' ≤ fewestTicks p r + tickCount [i] := by
  have htick (ht : i.tick = true) : tickCount [i] = 1 := by simp [ht]
  cases hm with
  | rests => exact Nat.le_add_right ..
  | waits hwait ht hc =>
    rw [h.setCnt_of_waits hwait, htick ht]
    cases hph : r.phase with
    | beginWait => simp [fewestTicks, hph]
    | startLow | startRel => simp only [fewestTicks, hph, Nat.add_assoc, le_refl]
    | _ =>
      rw [hph] at hwait
      cases hwait
  | counts hlevel =>
    have hmeasures := isSome_of_expectedLevel hlevel
    rw [fewestTicks_of_capture (.inr hmeasures), fewestTicks_of_capture (r := r.setCnt p (r.cnt + 1)) (.inr hmeasures)]
    exact Nat.le_add_right ..
  | releases hph ht hc =>
    rw [htick ht]
    simp only [fewestTicks, hph, Regs.enter_phase]
    exact hc.ge
  | listens hph ht hc =>
    rw [htick ht]
    simp only [fewestTicks, hph, pulseIndex, Regs.enter_phase, Regs.enter_variant]
    omega
  | pulseEnds hlevel ht =>
    have hmeasures := isSome_of_expectedLevel hlevel
    rw [htick ht, fewestTicks_of_capture (.inr hmeasures),
      fewestTicks_of_capture (r := pulseEnd p r) ((pulseEnd_next p hmeasures).symm.imp_right And.left), pulseEnd_variant,
      pulseIndex_pulseEnd h hmeasures]
    exact le_rfl
  | begins | validates | fails => exact Nat.zero_le _

/-- A cycle without reset raises it by at most the cycle's tick, whatever the host writes. -/
theorem fewestTicks_cycleRegs_le (h : r.Inv p) (hr : i.rst = false) :
    fewestTicks p (cycleRegs p i r) ≤ fewestTicks p r + tickCount [i] := by
  by_cases hidle : r.phase = .idle
  · rw [cycleRegs_idle hr hidle, fewestTicks_hostRegs hr hidle]
    exact Nat.zero_le _
  · rw [cycleRegs_busy hr hidle]
    have hmove := sequencerCycle_move (p := p) hr h.phaseUsed hidle
    exact (hmove.fewestTicks_le h :)

theorem cycleRegs_variant (hr : i.rst = false) : (cycleRegs p i r).variant = r.variant := by
  rw [cycleRegs_noReset hr, sequencerCycle_variant, hostRegs_variant]

theorem fewestTicks_runRegs_le {ins : List Inputs} (hl : p.Legal) (h : r.Inv p) (hnr : NoReset ins) :
    fewestTicks p (runRegs p ins r) ≤ fewestTicks p r + tickCount ins ∧ (runRegs p ins r).variant = r.variant := by
  induction ins generalizing r with
  | nil => exact ⟨le_rfl, rfl⟩
  | cons i ins ih =>
    obtain ⟨hi, hins⟩ := List.forall_mem_cons.mp hnr
    obtain ⟨hle, hvariant⟩ := ih (h.cycleRegs hl i) hins
    have hcycle := fewestTicks_cycleRegs_le h hi
    have hcount : tickCount (i :: ins) = tickCount [i] + tickCount ins := tickCount_append [i] ins
    rw [runRegs_cons]
    exact ⟨by omega, hvariant.trans (cycleRegs_variant hi)⟩

/-! ### The most ticks -/

/-- A tick raises it by at least 1, or the READ ends. -/
theorem SequencerMove.mostTicks_ge {r' : Regs} (h : r.Inv p) (hreads : r.phase.reads = true) (hm : SequencerMove p i r r') :
    r'.phase = .idle ∨ r'.phase.reads = true ∧ mostTicks p r + tickCount [i] ≤ mostTicks p r' := by
  have htick (ht : i.tick = true) : tickCount [i] = 1 := by simp [ht]
  cases hm with
  | begins | validates | fails => exact .inl rfl
  | rests hv hrest =>
    refine .inr ⟨hreads, ?_⟩
    cases ht : i.tick with
    | false => simp [ht]
    | true =>
      obtain ⟨hph, hover⟩ := hrest ht
      have hlt := (cntInPhase_iff_of_wait (n := p.hold r.variant) (by rw [hph, waitLength_startLow])).mp h.cntInPhase
      omega
  | waits hwait ht hc =>
    rw [h.setCnt_of_waits hwait, htick ht]
    refine .inr ⟨hreads, ?_⟩
    cases hph : r.phase with
    | startLow | startRel => simp only [mostTicks, hph, Nat.add_assoc, le_refl]
    | beginWait =>
      rw [hph] at hreads
      cases hreads
    | _ =>
      rw [hph] at hwait
      cases hwait
  | counts hlevel ht hc =>
    have hmeasures := isSome_of_expectedLevel hlevel
    have hspan := p.maxCycles_add_two_le
    rw [Regs.setCnt_of_lt (by omega), htick ht]
    rw [mostTicks_of_measuring hmeasures, mostTicks_of_measuring (r := { r with cnt := r.cnt + 1 }) hmeasures]
    exact .inr ⟨hreads, le_rfl⟩
  | releases hph ht hc =>
    rw [htick ht]
    simp only [mostTicks, hph, Regs.enter_phase]
    exact .inr ⟨rfl, hc.le⟩
  | listens hph ht hc =>
    rw [htick ht]
    simp only [mostTicks, hph, pulseIndex, Regs.enter_phase, Regs.enter_variant, Regs.enter_cnt, Nat.zero_mul]
    exact .inr ⟨rfl, by omega⟩
  | pulseEnds hlevel ht =>
    have hmeasures := isSome_of_expectedLevel hlevel
    have hcnt := h.cnt_le_of_measuring hmeasures
    have hindex := pulseIndex_pulseEnd h hmeasures
    rw [htick ht, mostTicks_of_measuring hmeasures]
    refine .inr ?_
    obtain ⟨hnext, hone⟩ | hlast := pulseEnd_next p hmeasures
    · rw [mostTicks_of_measuring hnext, pulseEnd_variant, hindex, hone, Nat.succ_mul]
      exact ⟨reads_of_measuring hnext, by omega⟩
    · have hall := pulseIndex_validate hlast
      have h82 : pulseIndex r = 81 := by omega
      refine ⟨by rw [hlast]; rfl, ?_⟩
      simp only [mostTicks, hlast, readTicks, pulseEnd_variant, h82]
      omega

theorem busy_of_reads {ph : Phase} (h : ph.reads = true) : ph ≠ .idle := fun hi => by
  rw [hi] at h
  cases h

/-- A cycle without reset raises it by at least the cycle's tick, or the READ ends, whatever the line, the pad and the host do. -/
theorem mostTicks_cycleRegs_ge (h : r.Inv p) (hr : i.rst = false) (hreads : r.phase.reads = true) :
    (cycleRegs p i r).phase = .idle ∨
      (cycleRegs p i r).phase.reads = true ∧ mostTicks p r + tickCount [i] ≤ mostTicks p (cycleRegs p i r) := by
  have hbusy := busy_of_reads hreads
  have hmove := sequencerCycle_move (p := p) hr h.phaseUsed hbusy
  rw [cycleRegs_busy hr hbusy]
  exact (hmove.mostTicks_ge h hreads :)

/-- Before VALIDATE a READ has not used up its ticks. -/
theorem Regs.Inv.mostTicks_lt (h : r.Inv p) (hreads : r.phase.reads = true) (hv : r.phase ≠ .validate) :
    mostTicks p r < readTicks p r.variant := by
  have hcnt := h.cntInPhase
  have hmeasuring (hmeasures : (expectedLevel r.phase).isSome = true) : mostTicks p r < readTicks p r.variant := by
    have hwidth := h.cnt_le_of_measuring hmeasures
    have hpulses := Nat.mul_le_mul_right p.maxCycles (h.pulseIndex_lt_of_measuring hmeasures)
    rw [Nat.succ_mul] at hpulses
    rw [mostTicks_of_measuring hmeasures, readTicks]
    omega
  cases hph : r.phase with
  | startLow | startRel =>
    simp only [Machine.cntInPhase, hph, decide_eq_true_eq] at hcnt
    simp only [mostTicks, hph, readTicks]
    omega
  | ackLow | ackHigh | bitLow | bitHigh => exact hmeasuring (by rw [hph]; rfl)
  | validate => exact absurd hph hv
  | _ =>
    rw [hph] at hreads
    cases hreads

end Progress

/-! ### The bounds (70_reset_and_hazards.md R271, R272) -/

theorem run_succ {s t : State} (h : step s = .next t) (k : Nat) : Host.Core.run core (k + 1) s = Host.Core.run core k t := by
  have hcore : core.step s = .next t := h
  simp only [Host.Core.run, hcore]

/-- VALIDATE lasts one cycle, a reset or not. -/
theorem cycleRegs_validate_phase {p : Params} {i : Inputs} {r : Regs} (hph : r.phase = .validate) :
    (cycleRegs p i r).phase = .idle := by
  cases hr : i.rst with
  | true => rw [cycleRegs_reset hr, resetRegs_phase]
  | false =>
    by_cases hsum : ChecksumHolds r.frame
    · exact (TransitionRow.checksumPasses hr hph hsum).phase
    · exact (TransitionRow.checksumFails hr hph hsum).phase

/-- A READ whose remaining ticks the schedule has is over after it, or after the one cycle of VALIDATE. -/
theorem State.Inv.read_ends {s : State} {ins rest : List Inputs} (h : s.Inv) (hreads : s.regs.phase.reads = true)
    (hp : s.pending = ins ++ rest) (hnr : NoReset ins)
    (hticks : readTicks s.params s.regs.variant ≤ mostTicks s.params s.regs + tickCount ins) :
    ∃ k t, k ≤ ins.length + 1 ∧ Host.Core.run core k s = .next t ∧ t.regs.phase = .idle := by
  induction ins generalizing s with
  | nil =>
    have hph : s.regs.phase = .validate := by
      by_contra hv
      exact absurd (h.regs.mostTicks_lt hreads hv) (Nat.not_lt.mpr hticks)
    exact ⟨1, _, le_rfl, run_succ (step_eq h.legal (.inr h.regs.phaseUsed)) 0, cycleRegs_validate_phase hph⟩
  | cons i ins ih =>
    obtain ⟨hi, hins⟩ := List.forall_mem_cons.mp hnr
    have hstep := step_eq h.legal (.inr h.regs.phaseUsed)
    rw [State.inputs_of_pending hp] at hstep
    obtain hidle | ⟨hreads', hle⟩ := mostTicks_cycleRegs_ge h.regs hi hreads
    · exact ⟨1, _, by simp, run_succ hstep 0, hidle⟩
    · have hcount : tickCount (i :: ins) = tickCount [i] + tickCount ins := tickCount_append [i] ins
      have hvariant := cycleRegs_variant (p := s.params) (r := s.regs) hi
      have hremaining : readTicks s.params (cycleRegs s.params i s.regs).variant ≤
          mostTicks s.params (cycleRegs s.params i s.regs) + tickCount ins := by
        rw [hvariant]
        omega
      obtain ⟨k, t, hk, hrun, ht⟩ := ih (s := afterCycle s (cycleRegs s.params i s.regs))
        ⟨h.legal, h.regs.cycleRegs h.legal i⟩ hreads' (by simp [hp]) hins hremaining
      exact ⟨k + 1, t, Nat.succ_le_succ hk, (run_succ hstep k).trans hrun, ht⟩

/-- Settles O31: from the acceptance on, each tick of the schedule raises `mostTicks` until the READ ends. -/
theorem readIsBusyForABoundedTime : Obligations.ReadIsBusyForABoundedTime := by
  intro s hold ins rest h hph hcnt hhold hp hnr hticks
  rw [waitLength_startLow, Option.some.injEq] at hhold
  refine h.read_ends (by rw [hph]; rfl) hp hnr ?_
  rw [readTicks, hhold, hticks]
  exact Nat.le_add_left ..

/-- Settles O32: `fewestTicks` is 0 at the acceptance and HOLD + RELEASE_TICKS + 82 in VALIDATE. -/
theorem validateNeedsAMinimumOfTicks : Obligations.ValidateNeedsAMinimumOfTicks := by
  intro s t hold k ins rest h hph hcnt hhold hp hnr hticks hk hrun hvalidate
  rw [waitLength_startLow, Option.some.injEq] at hhold
  have hsplit : ins = ins.take k ++ ins.drop k := (List.take_append_drop k ins).symm
  have hprefix := run_schedule (ins.take k) (ins.drop k ++ rest) s h.legal h.regs.phaseUsed
    (by rw [hp, ← List.append_assoc, ← hsplit])
  rw [List.length_take_of_le hk, hrun] at hprefix
  cases hprefix
  obtain ⟨hle, hvariant⟩ := fewestTicks_runRegs_le (ins := ins.take k) h.legal h.regs
    fun i hi => hnr i (List.mem_of_mem_take hi)
  have hstart : fewestTicks s.params s.regs = 0 := by rw [fewestTicks, hph, hcnt]
  have hcount : tickCount ins = tickCount (ins.take k) + tickCount (ins.drop k) := by rw [← tickCount_append, ← hsplit]
  rw [fewestTicks_of_capture (.inl hvalidate), hvariant, hhold, hstart, pulseIndex_validate hvalidate] at hle
  omega

end Sys2Proof.Machine
end
